-- ==== Sys2Proof/Word.lean ====
section
/-! DEFINITION. The bit vectors of the flicker core, one name per width the spec gives (R5, R10). -/

namespace Sys2Proof

/-- A command word on the port `cmd`, `CMD_W` = 20 bits (R5, R45). -/
abbrev Command := BitVec 20

/-- A frame packed in 5 bits: bit `k` is tuple position `k`, so bit 0 is the clock bit and bits 4 to 1 are the
nibble (R7, R11). -/
abbrev Frame := BitVec 5

/-- The value of one hexadecimal character, 4 bits (R9). -/
abbrev Nibble := BitVec 4

/-- One 8-bit character code, `CHAR_W` = 8 (R5, R53). -/
abbrev CharCode := BitVec 8

/-- A tick interval in time units, `W_INT` = 16 bits, unsigned (R5, R18). -/
abbrev Interval := BitVec 16

/-- The index of a frame-buffer slot, `IDX_W` = 8 bits (R5, R31). -/
abbrev SlotIndex := BitVec 8

/-- A count of slots, `CNT_W` = 9 bits (R5, R14). -/
abbrev Count := BitVec 9

end Sys2Proof
end

