-- ==== Sys2Proof/Syntax.lean ====
section
/-! DEFINITION. The commands, one constructor per row of the opcode map (R47, R48), and the assembler lines of
R51 and R52. -/

namespace Sys2Proof

/-- A command of the port (R47). The operand is the one the command's form assembles (R46); bits a form ignores
take part in nothing and are no part of the syntax. -/
inductive Instr
  /-- `0x0` NOP: an idle step (R87). -/
  | nop
  /-- `0x1` CLR: begin an encode, insert the preamble (R66). -/
  | clr
  /-- `0x2` PUSH c: take one challenge character (R67). -/
  | push (c : CharCode)
  /-- `0x3` FIN: end the string, publish the result (R68). -/
  | fin
  /-- `0x4` START v: begin showing the sequence with interval `v` (R80). -/
  | start (v : Interval)
  /-- `0x5` TICK: one firing of the periodic timer (R81 to R83). -/
  | tick
  /-- `0x6` RECONF v: change the interval while running (R85). -/
  | reconf (v : Interval)
  /-- `0x7` STOP: teardown (R86). -/
  | stop
  /-- `0x8`, reserved (R48). -/
  | reserved8
  /-- `0x9`, reserved (R48). -/
  | reserved9
  /-- `0xA`, reserved (R48). -/
  | reservedA
  /-- `0xB`, reserved (R48). -/
  | reservedB
  /-- `0xC`, reserved (R48). -/
  | reservedC
  /-- `0xD`, reserved (R48). -/
  | reservedD
  /-- `0xE`, reserved (R48). -/
  | reservedE
  /-- `0xF`, reserved (R48). -/
  | reservedF
deriving DecidableEq, Repr

/-- One line of the assembler notation (R51) or a pseudo-instruction (R52). Numbers are written without a bound
here; `WellFormed.lean` checks the ranges. -/
inductive AsmLine
  | nop
  | clr
  /-- `PUSH` with a quoted character: its code is taken (R51). Which code a character outside GK1's list has, the spec does
  not say; the model takes its code point, which is ASCII's (PRESUMED: log 20). -/
  | pushChar (c : Char)
  /-- `PUSH 0xNN`: a number 0 to 255. -/
  | pushCode (n : Nat)
  | fin
  /-- `START n`: a number 0 to 65535. -/
  | start (n : Nat)
  | tick
  /-- `RECONF n`: a number 0 to 65535. -/
  | reconf (n : Nat)
  | stop
  /-- `ENCODE "text"`: CLR, one PUSH per character, FIN (R52). -/
  | encodeText (text : List CharCode)
  /-- `TICK k`: `k` consecutive TICK commands (R52). -/
  | tickTimes (k : Nat)
deriving DecidableEq, Repr

end Sys2Proof
end

