-- ==== Sys2Proof/WellFormed.lean ====
section
/-! DEFINITION. Which terms of the syntax stand for something: the operand ranges of R51, and the commands. -/

namespace Sys2Proof

/-- Every command is well formed: its operand is a bit vector of the field's own width (R46), and every one of the
`2^20` words is a command (R48). Written arm by arm so that a new command cannot slip past. -/
def Instr.wellFormed : Instr → Bool
  | .nop => true
  | .clr => true
  | .push _ => true
  | .fin => true
  | .start _ => true
  | .tick => true
  | .reconf _ => true
  | .stop => true
  | .reserved8 => true
  | .reserved9 => true
  | .reservedA => true
  | .reservedB => true
  | .reservedC => true
  | .reservedD => true
  | .reservedE => true
  | .reservedF => true

/-- The operand ranges of R51: a printable character, a code 0 to 255, an interval 0 to 65535. R51 does not say which
characters are printable: codes `0x20` to `0x7E`, the printable ASCII characters, are the model's choice (PRESUMED:
log 20). -/
def AsmLine.wellFormed : AsmLine → Bool
  | .nop => true
  | .clr => true
  | .pushChar c => decide (0x20 ≤ c.toNat) && decide (c.toNat ≤ 0x7E)
  | .pushCode n => decide (n ≤ 255)
  | .fin => true
  | .start n => decide (n ≤ 65535)
  | .tick => true
  | .reconf n => decide (n ≤ 65535)
  | .stop => true
  | .encodeText _ => true
  | .tickTimes _ => true

end Sys2Proof
end

