-- ==== Sys2Proof/Decode.lean ====
section
/-! DEFINITION. The decoder and the encoder of the 20-bit command word (R45 to R48), and the assembler (R51, R52). -/

namespace Sys2Proof

/-- `op = cmd[19:16]` (R45). -/
def opField (w : Command) : BitVec 4 := w.extractLsb' 16 4

/-- `arg = cmd[15:0]` (R45), the operand of form `ivl` (R46). -/
def argField (w : Command) : BitVec 16 := w.extractLsb' 0 16

/-- `cmd[7:0]`, the operand of form `chr` (R46). -/
def chrField (w : Command) : CharCode := w.extractLsb' 0 8

/-- The decoder (R47, R48): total, the same in every state (R50). One row per opcode, the four bits of `op` written
from bit 3 down to bit 0 as the opcode table writes them. -/
def decode (w : Command) : Instr :=
  match (opField w).getLsbD 3, (opField w).getLsbD 2, (opField w).getLsbD 1, (opField w).getLsbD 0 with
  | false, false, false, false => .nop
  | false, false, false, true => .clr
  | false, false, true, false => .push (chrField w)
  | false, false, true, true => .fin
  | false, true, false, false => .start (argField w)
  | false, true, false, true => .tick
  | false, true, true, false => .reconf (argField w)
  | false, true, true, true => .stop
  | true, false, false, false => .reserved8
  | true, false, false, true => .reserved9
  | true, false, true, false => .reservedA
  | true, false, true, true => .reservedB
  | true, true, false, false => .reservedC
  | true, true, false, true => .reservedD
  | true, true, true, false => .reservedE
  | true, true, true, true => .reservedF

/-- Why a number is not a command word. -/
inductive DecodeError
  /-- The number has a bit above bit 19, so the 20-bit port cannot carry it (R45). Raised by `decodeNumber` alone; the
  machine itself never sees such a number. Safe: nothing is concluded of it. -/
  | notACommandWord
deriving DecidableEq, Repr

/-- The decoder on any number: the command of a 20-bit word, or a rejection by name. -/
def decodeNumber (n : Nat) : Except DecodeError Instr :=
  if n < 2 ^ 20 then .ok (decode (BitVec.ofNat 20 n)) else .error .notACommandWord

/-- The opcode of a command (R47). -/
def Instr.opcode : Instr → BitVec 4
  | .nop => 0x0#4
  | .clr => 0x1#4
  | .push _ => 0x2#4
  | .fin => 0x3#4
  | .start _ => 0x4#4
  | .tick => 0x5#4
  | .reconf _ => 0x6#4
  | .stop => 0x7#4
  | .reserved8 => 0x8#4
  | .reserved9 => 0x9#4
  | .reservedA => 0xA#4
  | .reservedB => 0xB#4
  | .reservedC => 0xC#4
  | .reservedD => 0xD#4
  | .reservedE => 0xE#4
  | .reservedF => 0xF#4

/-- The operand bits of a command; ignored bits are driven to 0 (R46). -/
def Instr.operandBits : Instr → BitVec 16
  | .push c => 0#8 ++ c
  | .start v => v
  | .reconf v => v
  | .nop | .clr | .fin | .tick | .stop => 0#16
  | .reserved8 | .reserved9 | .reservedA | .reservedB => 0#16
  | .reservedC | .reservedD | .reservedE | .reservedF => 0#16

/-- The encoder: the command word of a command, from the format of R45. -/
def encode (i : Instr) : Command := i.opcode ++ i.operandBits

/-- The command your decoder reads from an instruction of `nbits` bits numbered as `w`. There is no program memory:
the 20-bit word itself is presented on the port (R45, R50), so no byte order arises. -/
def decodeTableWord (nbits w : Nat) : Option Instr :=
  (decodeNumber (w % 2 ^ nbits)).toOption

/-- The commands an assembler line stands for (R51, R52). An operand out of range has been refused by
`AsmLine.wellFormed`. The code of a quoted character is its code point (PRESUMED: log 20). -/
def AsmLine.expand : AsmLine → List Instr
  | .nop => [.nop]
  | .clr => [.clr]
  | .pushChar c => [.push (BitVec.ofNat 8 c.toNat)]
  | .pushCode n => [.push (BitVec.ofNat 8 n)]
  | .fin => [.fin]
  | .start n => [.start (BitVec.ofNat 16 n)]
  | .tick => [.tick]
  | .reconf n => [.reconf (BitVec.ofNat 16 n)]
  | .stop => [.stop]
  | .encodeText text => .clr :: (text.map .push ++ [.fin])
  | .tickTimes k => List.replicate k .tick

/-- The words of an assembler line. -/
def AsmLine.words (l : AsmLine) : List Command := l.expand.map encode

end Sys2Proof
end

