-- ==== Sys2Proof/Config.lean ====
section
/-! DEFINITION. The parameters of R5 that this hardware fixes, and the one free value of the model. -/

namespace Sys2Proof.Config

/-- `N_MAX` (R5, D6): the capacity of the frame buffer in slots. -/
def nMax : Nat := 256

/-- `N_MAX` as a count, the value `cnt` is compared with when the buffer is full (R67). -/
def nMaxCount : Count := 256#9

/-- `PREAMBLE` (R5, R62): the characters `0FFF`, as the character codes of R53. -/
def preamble : List CharCode := [0x30#8, 0x46#8, 0x46#8, 0x46#8]

/-- How many characters the preamble has: the value CLR gives `cnt` (R66). -/
def preambleCount : Count := 4#9

/-- `DEFAULT_DELAY` (R5): the interval after reset, 50 time units (R28). -/
def defaultDelay : Interval := 50#16

/-- `ODD_TAIL_FILL` (R5, D5): the data bits of the last slot of an odd-length sequence. -/
def oddTailFill : Nibble := 0#4

/-- FREE VALUE (R12, R28, U5: "any 5-bit value"): what a slot of the frame buffer holds before any command has
written it. No body: nothing can be proved of it. DESIGN CHOICE, safe: log 2. -/
opaque powerUpSlot : Nat → Frame

end Sys2Proof.Config
end

