-- ==== Sys2Proof/Machine/State.lean ====
section
/-! DEFINITION. The state of the machine: every piece of state the spec gives it, and the model's own records. -/

namespace Sys2Proof.Machine

/-- The frame buffer `FB` (R12, R30): the slots written since power-up, as (slot index, frame), indices strictly rising.
The smallest unit of this hardware is a slot of 5 bits, so a cell holds a frame, not a byte. A slot that is not listed
has no value; see `Memory.read?` and log 2. -/
abbrev Memory := List (Nat × Frame)

/-- The registers of the timer service's reference model (R110). The service is outside the core; its rules are R107
to R111. -/
structure Timer where
  /-- `P`, the period it was last loaded with. -/
  period : Interval
  /-- `tcnt`, the time units left of the current period. -/
  tcnt : Interval
  /-- `due`: a tick has fallen due and is not delivered yet. -/
  due : Bool
  /-- A `tmr_load_o` pulse seen since the last time unit, with the interval shown at the pulse (R109 d; log 11). -/
  loadSeen : Option Interval
deriving DecidableEq, Repr

/-- What the world outside presents to the machine for one step (R21, R104, R110, R117). The list of these in `State`
is "an arbitrary sequence" of R117: host, arbiter and the passing of time, in any order (log 1, log 10). -/
inductive Input
  /-- One rising edge of `clk` with these values on the input ports (R21). -/
  | clock (rst cmdValid : Bool) (cmd : Command)
  /-- One rising edge of `clk`, `rst = 0`, in which the arbiter grants the port to the timer service (R104, R110). -/
  | grant
  /-- One time unit passes at the timer service (R110). -/
  | timeUnit
deriving DecidableEq, Repr

/-- One entry of the emitted trace (R8): the frame, and whether a normal tick emitted it (R82) or a pending one (R83,
"not a steady-state tick"). -/
structure Emission where
  frame : Frame
  steady : Bool
deriving DecidableEq, Repr

/-- The refusal marks the spec asks a model to keep for itself (R101, D26, U9, U10; log 6): one kind per command that
can be ignored, and one for the reserved opcodes. The hardware keeps no such mark. -/
inductive Mark
  /-- CLR with `RUN = 1` (R66). -/
  | ignoredClr
  /-- PUSH with `ENC = 0` (R67). -/
  | ignoredPush
  /-- FIN with `ENC = 0` (R68). -/
  | ignoredFin
  /-- START with `VALID = 0` (R80). -/
  | ignoredStart
  /-- TICK with `RUN = 0` (R81). -/
  | ignoredTick
  /-- A reserved opcode, executed as NOP (R48). -/
  | reservedOpcode
deriving DecidableEq, Repr

/-- The state of the flicker core (R10), its output registers (R22), the timer service (R110), the inputs still to come
and the model's records. INVENTORY.md lists each with its rule and its reset value. -/
structure State where
  /-- `FB`, the frame buffer (R12). -/
  fb : Memory
  /-- `cnt`: characters of the code accepted so far (R14). -/
  cnt : Count
  /-- `hold`: the nibble waiting for its partner (R14). -/
  hold : Nibble
  /-- `len`: length of the last finished sequence (R14). -/
  len : Count
  /-- `ENC`: an encode is open (R15). -/
  enc : Bool
  /-- `VALID`: a complete encode result is held (R15). -/
  valid : Bool
  /-- `OVF`: a PUSH was dropped because the buffer was full (R15). -/
  ovf : Bool
  /-- `idx`: the slot the next normal TICK emits (R16). -/
  idx : SlotIndex
  /-- `phase`: the clock bit the next normal TICK emits (R17). -/
  phase : Bool
  /-- `tick_interval` (R18). -/
  tickInterval : Interval
  /-- `PEND`: an interval change waits for its tick (R19). -/
  pend : Bool
  /-- `RUN`: the sequencer is running (R20). -/
  run : Bool
  /-- `frame_o`: the last emitted frame (R22, R23). -/
  frameO : Frame
  /-- `frame_stb_o`: the emission pulse (R22). -/
  frameStbO : Bool
  /-- `tmr_load_o`: the timer-load pulse (R22). -/
  tmrLoadO : Bool
  /-- The timer service's registers (R110). -/
  timer : Timer
  /-- MODEL: the inputs not yet taken, first one next (log 1). -/
  inputs : List Input
  /-- MODEL: the emitted trace, oldest first (R8, R94; log 5). -/
  trace : List Emission
  /-- MODEL: the `timer_load` values, oldest first (R8; log 5). -/
  loads : List Interval
  /-- MODEL: the refusal marks, oldest first (R101; log 6). -/
  marks : List Mark
deriving DecidableEq, Repr

/-- The faults of the machine: none. "The hardware raises no synchronous exception" (R100), so no constructor raises
one. Safe: nothing is stopped that the hardware would do. -/
inductive Fault
deriving DecidableEq, Repr

/-- Why a step has no next state. -/
inductive Refusal
  /-- A command that has no meaning in the model yet. Raised by `exec`'s refused arms only; there is none. Safe. -/
  | notModelled (mnemonic : String)
  /-- The reference timer service is asked to count a period of 0 (R110: "not defined"; U6: "refuse a run that loads
  period 0"). Raised by a `timeUnit` input only, never by a command. Safe: the run is given no meaning (log 13). -/
  | timerPeriodZero
deriving DecidableEq, Repr

/-- The outcome of an instruction or a step of this machine. -/
abbrev Out := Host.Outcome State Fault Refusal

/-- The timer service after reset (R110): nothing due. `P` and `tcnt` are unspecified there; 0 is the model's choice
(DESIGN CHOICE, unsafe: log 14). -/
def Timer.reset : Timer :=
  { period := 0#16, tcnt := 0#16, due := false, loadSeen := none }

/-- The machine right after reset (R28, R120). `hold` is unspecified there; 0 is the model's choice (DESIGN CHOICE,
unsafe: log 3). No slot of `FB` is listed (log 2), nothing is presented (log 1), the records are empty. -/
def State.reset : State :=
  { fb := []
    cnt := 0#9
    hold := 0#4
    len := 0#9
    enc := false
    valid := false
    ovf := false
    idx := 0#8
    phase := true
    tickInterval := Config.defaultDelay
    pend := false
    run := false
    frameO := 0#5
    frameStbO := false
    tmrLoadO := false
    timer := Timer.reset
    inputs := []
    trace := []
    loads := []
    marks := [] }

end Sys2Proof.Machine
end

