-- ==== Sys2Proof/Machine/Flags.lean ====
section
/-! DEFINITION. The flags: the tests the commands make on them, the status word and the other output ports (R22). -/

namespace Sys2Proof.Machine

/-- `cnt` odd: a character waits for its partner (R14); odd or even is `cnt[0]` (R73). -/
def State.cntOdd (s : State) : Bool := s.cnt.getLsbD 0

/-- `cnt = N_MAX`: the buffer is full (R67). -/
def State.full (s : State) : Bool := s.cnt == Config.nMaxCount

/-- `status_o` (R22): bit 4 `OVF`, bit 3 `PEND`, bit 2 `RUN`, bit 1 `VALID`, bit 0 `ENC`. -/
def State.statusO (s : State) : BitVec 5 :=
  BitVec.ofBool s.ovf ++ BitVec.ofBool s.pend ++ BitVec.ofBool s.run ++ BitVec.ofBool s.valid ++ BitVec.ofBool s.enc

/-- `tmr_interval_o` equals `tick_interval` at all times (R22). -/
def State.tmrIntervalO (s : State) : Interval := s.tickInterval

/-- `tmr_en_o` equals `RUN` (R22). -/
def State.tmrEnO (s : State) : Bool := s.run

/-- `cmd_ready` is constant 1 (R22, R131). -/
def State.cmdReady (_s : State) : Bool := true

/-- What bar `n` of the renderer shows, bar 0 leftmost: bit `n` of `frame_o` (R112). -/
def State.bar (s : State) (n : Fin 5) : Bool := s.frameO.getLsbD n.val

/-- Which commands are executed in which state, the X cells of R102; NOP and the reserved opcodes count as executed. -/
def accepted (i : Instr) (s : State) : Bool :=
  match i with
  | .clr => !s.run
  | .push _ => s.enc
  | .fin => s.enc
  | .start _ => s.valid
  | .tick => s.run
  | .nop | .reconf _ | .stop => true
  | .reserved8 | .reserved9 | .reservedA | .reservedB => true
  | .reservedC | .reservedD | .reservedE | .reservedF => true

end Sys2Proof.Machine
end

