-- ==== Sys2Proof/Machine/Operands.lean ====
section
/-! DEFINITION. What the operands of the commands stand for: the character of PUSH as a nibble (R60), and the slot
indices that the commands compute (R31). The operand fields of a word are cut out in `Decode.lean` (R46). -/

namespace Sys2Proof.Machine

/-- `nibble(c)` (R60): the hex-digit mapping, 0 for every other code. -/
def nibble (c : CharCode) : Nibble :=
  if 0x30#8 ≤ c ∧ c ≤ 0x39#8 then (c - 0x30#8).setWidth 4
  else if 0x41#8 ≤ c ∧ c ≤ 0x46#8 then (c - 0x41#8 + 10#8).setWidth 4
  else if 0x61#8 ≤ c ∧ c ≤ 0x66#8 then (c - 0x61#8 + 10#8).setWidth 4
  else 0#4

/-- A count used as a slot index: "a slot index is an unsigned number of `IDX_W` bits" (R31). No index outside the
buffer can be expressed (log 7). -/
def slotIndex (n : Count) : SlotIndex := n.setWidth 8

/-- `code(s)` (R62): the preamble put before the challenge. -/
def code (s : List CharCode) : List CharCode := Config.preamble ++ s

end Sys2Proof.Machine
end

