-- ==== Sys2Proof/Machine/Ops.lean ====
section
/-! DEFINITION. The named operations over the frame buffer and the registers: frames and the lookup table, reading and
writing a slot, `emit`, `timer_load` and `ignore` (R8), and the pure function `encode` (R63). There is no operation for
taking an exception or returning from one: the hardware has neither (R100, R105). -/

namespace Sys2Proof.Machine

/-! ## Frames and the lookup table -/

/-- A frame from its clock bit and its data bits: `f = {v[3:0], clock}` (R11). -/
def packFrame (clock : Bool) (data : Nibble) : Frame := data ++ BitVec.ofBool clock

/-- Tuple position 0 of a frame (R11). -/
def clockBit (f : Frame) : Bool := f.getLsbD 0

/-- Tuple positions 1 to 4 of a frame, as the nibble they carry (R11). -/
def dataBits (f : Frame) : Nibble := f.extractLsb' 1 4

/-- `T[clock]` replaced, the data positions kept (R82). -/
def withClock (clock : Bool) (f : Frame) : Frame := packFrame clock (dataBits f)

/-- `lut(v)` (R61): row `v` is `(0, v[0], v[1], v[2], v[3])`. -/
def lut (v : Nibble) : Frame := packFrame false v

/-- The frame FIN stores in the last slot of an odd-length sequence (R35, R68, D5). -/
def oddTailFrame : Frame := packFrame false Config.oddTailFill

/-! ## The frame buffer -/

/-- One slot of the buffer: its frame if a command has written it, else no value (R12, R28; log 2). -/
def Memory.read? : Memory → Nat → Option Frame
  | [], _ => none
  | (j, g) :: m, i => if i = j then some g else Memory.read? m i

/-- `FB[i] <- f` (R8): the slots stay in rising order, and every other slot keeps what it held. -/
def Memory.write : Memory → Nat → Frame → Memory
  | [], i, f => [(i, f)]
  | (j, g) :: m, i, f =>
    if i < j then (i, f) :: (j, g) :: m
    else if i = j then (i, f) :: m
    else (j, g) :: Memory.write m i f

/-- The canonical form above a bound: indices strictly rising from `lo` on, all inside the buffer. -/
def Memory.wfFrom : Nat → Memory → Bool
  | _, [] => true
  | lo, (i, _) :: m => decide (lo ≤ i) && decide (i < Config.nMax) && Memory.wfFrom (i + 1) m

/-- The canonical form of the frame buffer: strictly rising slot indices, all below `N_MAX` (R30, R31). -/
def Memory.wf (m : Memory) : Bool := Memory.wfFrom 0 m

/-- `FB[i]` (R8, R37): the slot's frame; a slot that nothing has written holds its power-up content, a free value
(R28, U5; log 2). -/
def slotAt (m : Memory) (i : Nat) : Frame := (Memory.read? m i).getD (Config.powerUpSlot i)

/-- `FB[i] <- f` at a slot index (R31). -/
def writeSlot (i : SlotIndex) (f : Frame) (s : State) : State :=
  { s with fb := Memory.write s.fb i.toNat f }

/-! ## The primitives of R8 -/

/-- `emit(T)` (R8): drive `frame_o`, pulse `frame_stb_o`, append to the emitted trace. `steady` records whether the
tick was a normal one (R83). -/
def emit (f : Frame) (steady : Bool) (s : State) : State :=
  { s with frameO := f, frameStbO := true, trace := s.trace ++ [{ frame := f, steady := steady }] }

/-- `timer_load(v)` (R8): pulse `tmr_load_o`; the interval itself is on `tmr_interval_o`. -/
def timerLoad (v : Interval) (s : State) : State :=
  { s with tmrLoadO := true, loads := s.loads ++ [v] }

/-- `ignore` (R8): no state of the hardware changes and no pulse is driven; the model keeps the refusal mark of R101
(log 6). -/
def ignore (m : Mark) (s : State) : State := { s with marks := s.marks ++ [m] }

/-! ## The operations of the encoder and the sequencer -/

/-- The preamble's four slots, the pairs swapped (R38, R66). -/
def writePreamble (s : State) : State :=
  writeSlot 3#8 (lut 15#4) (writeSlot 2#8 (lut 15#4) (writeSlot 1#8 (lut 0#4) (writeSlot 0#8 (lut 15#4) s)))

/-- Close a pair (R33, R67): slot `cnt - 1` gets the character just taken, slot `cnt` the one that waited. -/
def writePair (v : Nibble) (s : State) : State :=
  writeSlot (slotIndex s.cnt) (lut s.hold) (writeSlot (slotIndex (s.cnt - 1#9)) (lut v) s)

/-- Fill the last slot of an odd-length sequence (R35, R68). -/
def writeOddTail (s : State) : State := writeSlot (slotIndex (s.cnt - 1#9)) oddTailFrame s

/-- The frame a TICK emits: the slot at `idx` with its clock position replaced by `phase` (R82, R83). -/
def tickFrame (s : State) : Frame := withClock s.phase (slotAt s.fb s.idx.toNat)

/-- `idx + 1`, formed in `CNT_W` bits and wrapped at `len` (R82, R88). -/
def nextIdx (s : State) : SlotIndex :=
  if s.idx.setWidth 9 + 1#9 = s.len then 0#8 else slotIndex (s.idx.setWidth 9 + 1#9)

/-- The phase toggle rule (R82): clock 1 then clock 0, and only then the next slot. -/
def advance (s : State) : State :=
  if s.phase then { s with phase := false } else { s with phase := true, idx := nextIdx s }

/-- The position of the sequencer put back to its start: `idx <- 0`, `phase <- 1` (R80, R86). -/
def rewind (s : State) : State := { s with idx := 0#8, phase := true }

/-! ## The function the encoder computes -/

/-- D0's algorithm (R63): two characters at a time, the frame of the second before the frame of the first; a last
character without a partner leaves the odd-tail frame. -/
def swapPairs : List Nibble → List Frame
  | a :: b :: rest => lut b :: lut a :: swapPairs rest
  | [_] => [oddTailFrame]
  | [] => []

/-- `encode(s)` (R63): the frames of the prefixed challenge. -/
def encodeChallenge (s : List CharCode) : List Frame := swapPairs ((code s).map nibble)

end Sys2Proof.Machine
end

