-- ==== Sys2Proof/Machine/Encoder.lean ====
section
/-! DEFINITION. The encoder's commands: CLR, PUSH, FIN (R65 to R68). -/

namespace Sys2Proof.Machine

/-- CLR (R66): begin an encode and insert the preamble; ignored while running. -/
def execClr (s : State) : Out :=
  if s.run then .next (ignore .ignoredClr s)
  else .next { writePreamble s with cnt := Config.preambleCount, enc := true, valid := false, ovf := false }

/-- PUSH c (R67): take one challenge character; ignored when no encode is open. Fullness is tested first. -/
def execPush (c : CharCode) (s : State) : Out :=
  if s.enc then
    if s.full then .next { s with ovf := true }
    else if s.cntOdd then .next { writePair (nibble c) s with cnt := s.cnt + 1#9 }
    else .next { s with hold := nibble c, cnt := s.cnt + 1#9 }
  else .next (ignore .ignoredPush s)

/-- FIN (R68): fill an odd tail and publish the result; ignored when no encode is open. -/
def execFin (s : State) : Out :=
  if s.enc then
    let s' := if s.cntOdd then writeOddTail s else s
    .next { s' with len := s.cnt, enc := false, valid := !s.ovf }
  else .next (ignore .ignoredFin s)

end Sys2Proof.Machine
end

