-- ==== Sys2Proof/Machine/Reserved.lean ====
section
/-! DEFINITION. The reserved opcodes `0x8` to `0xF`: "The hardware executes each of them as NOP" (R48). The model keeps the
refusal mark that R101 and U9 ask for (log 6). -/

namespace Sys2Proof.Machine

/-- A reserved opcode (R48): no state of the hardware changes, no pulse; the mark of R101. -/
def reservedNop (s : State) : State := ignore .reservedOpcode s

/-- Opcode `0x8`, reserved (R48). -/
def execReserved8 (s : State) : Out := .next (reservedNop s)

/-- Opcode `0x9`, reserved (R48). -/
def execReserved9 (s : State) : Out := .next (reservedNop s)

/-- Opcode `0xA`, reserved (R48). -/
def execReservedA (s : State) : Out := .next (reservedNop s)

/-- Opcode `0xB`, reserved (R48). -/
def execReservedB (s : State) : Out := .next (reservedNop s)

/-- Opcode `0xC`, reserved (R48). -/
def execReservedC (s : State) : Out := .next (reservedNop s)

/-- Opcode `0xD`, reserved (R48). -/
def execReservedD (s : State) : Out := .next (reservedNop s)

/-- Opcode `0xE`, reserved (R48). -/
def execReservedE (s : State) : Out := .next (reservedNop s)

/-- Opcode `0xF`, reserved (R48). -/
def execReservedF (s : State) : Out := .next (reservedNop s)

end Sys2Proof.Machine
end

