-- ==== Sys2Proof/Machine/Sequencer.lean ====
section
/-! DEFINITION. The sequencer's commands: NOP, START, TICK, RECONF, STOP (R80 to R87). -/

namespace Sys2Proof.Machine

/-- NOP (R87): nothing. -/
def execNop (s : State) : Out := .next s

/-- START v (R80): show the sequence from slot 0, phase 1, with a fresh timer period; ignored without a valid
sequence. A START while running restarts. -/
def execStart (v : Interval) (s : State) : Out :=
  if s.valid then .next (timerLoad v { rewind s with tickInterval := v, pend := false, run := true })
  else .next (ignore .ignoredStart s)

/-- A normal TICK (R82): store the clock bit in the slot, emit, then step. -/
def normalTick (s : State) : State :=
  advance (emit (tickFrame s) true (writeSlot s.idx (tickFrame s) s))

/-- A pending TICK (R83): clear `PEND`, reload the timer with the new interval, emit without stepping. -/
def pendingTick (s : State) : State :=
  emit (tickFrame s) false (timerLoad s.tickInterval { s with pend := false })

/-- TICK (R81): pending or normal by `PEND`; ignored while not running. -/
def execTick (s : State) : Out :=
  if s.run then
    if s.pend then .next (pendingTick s) else .next (normalTick s)
  else .next (ignore .ignoredTick s)

/-- RECONF v (R85): store the interval and set `PEND`; nothing else, in every state. -/
def execReconf (v : Interval) (s : State) : Out := .next { s with tickInterval := v, pend := true }

/-- STOP (R86): cancel the timer and put the position back; the interval and the encode result are kept. -/
def execStop (s : State) : Out := .next { rewind s with run := false, pend := false }

end Sys2Proof.Machine
end

