-- ==== Sys2Proof/Machine/Port.lean ====
section
/-! DEFINITION. The command port and the clock edge: taking an input, the pulses that last one cycle (R22), reset
(R28, R120). -/

namespace Sys2Proof.Machine

/-- Every rising edge takes the registered pulses down; a command executed on the edge may raise them again (R22;
log 9). -/
def beginEdge (s : State) : State := { s with frameStbO := false, tmrLoadO := false }

/-- A rising edge with `rst = 1` (R28, R120): every register takes its reset value. `FB` and `hold` are not reset and
keep what they hold (log 4); the timer service has nothing due (R110). The records of the model go on (log 5). -/
def resetEdge (s : State) : State :=
  { State.reset with
    fb := s.fb
    hold := s.hold
    timer := { s.timer with due := false, loadSeen := none }
    inputs := s.inputs
    trace := s.trace
    loads := s.loads
    marks := s.marks }

/-- A command word is presented as the very next input, with `cmd_valid = 1` and `rst = 0` (R21, R45; log 1). -/
def presentWord (w : Command) (s : State) : State :=
  { s with inputs := .clock false true w :: s.inputs }

end Sys2Proof.Machine
end

