-- ==== Sys2Proof/Machine/TimerService.lean ====
section
/-! DEFINITION. The timer service (R107 to R111), an agent outside the core, by the reference model of R110. A platform
may use another; every TICK can also arrive as a plain command word, at any time (log 10). -/

namespace Sys2Proof.Machine

/-- The service requests a TICK: one is due, and `tmr_en_o = 1` (R109 b, c; log 12). -/
def timerRequests (s : State) : Bool := s.timer.due && s.tmrEnO

/-- The arbiter has granted the port (R110): whatever tick is due is delivered, or dropped if the timer is cancelled
(R109 c; log 12). -/
def timerGranted (s : State) : State := { s with timer := { s.timer with due := false } }

/-- After a clock edge the service sees the outputs of the core: on a `tmr_load_o` pulse it reads `tmr_interval_o`, and
only then (R109 d; log 11), and while `tmr_en_o = 0` it drops a tick that is due but not delivered (R109 c; log 12). -/
def timerSees (s : State) : State :=
  { s with
    timer := { s.timer with
      loadSeen := if s.tmrLoadO then some s.tmrIntervalO else s.timer.loadSeen
      due := s.timer.due && s.tmrEnO } }

/-- A new period begins: `P <- v; tcnt <- v; due <- 0` (R110). It is here, not at the pulse, that a tick still due from
the old period is discarded (log 21). -/
def timerReload (v : Interval) (s : State) : State :=
  { s with timer := { period := v, tcnt := v, due := false, loadSeen := none } }

/-- One count of the running period (R110): at 1 a tick falls due and the next period starts. -/
def timerCount (s : State) : State :=
  if s.timer.tcnt = 1#16 then { s with timer := { s.timer with tcnt := s.timer.period, due := true } }
  else { s with timer := { s.timer with tcnt := s.timer.tcnt - 1#16 } }

/-- One time unit passes (R110): a pulse seen since the last one reloads, else an enabled timer counts, else a due tick
is dropped. A period of 0 is given no meaning (U6, log 13). -/
def timeUnitPasses (s : State) : Out :=
  match s.timer.loadSeen with
  | some v => if v = 0#16 then .refused .timerPeriodZero else .next (timerReload v s)
  | none => if s.tmrEnO then .next (timerCount s) else .next { s with timer := { s.timer with due := false } }

end Sys2Proof.Machine
end

