-- ==== Sys2Proof/Machine/Cycle.lean ====
section
/-! DEFINITION. What one input makes the machine do: a clock edge with or without a command, a reset edge, the arbiter's
grant, a time unit (R21, R45, R104, R110, R117). -/

namespace Sys2Proof.Machine

/-- A clock edge on which no command executes (R45): the pulses fall, and the timer service sees the outputs. -/
def idleEdge (s : State) : State := timerSees (beginEdge s)

/-- A clock edge on which a command executes (R45): the pulses fall, the command has its effect, and the timer service
sees the outputs it leaves. -/
def commandEdge (i : Instr) (s : State) : Out :=
  match exec i (beginEdge s) with
  | .next t => .next (timerSees t)
  | .fault r => .fault r
  | .refused r => .refused r

/-- A clock edge with these port values (R21): `rst` wins (R104, R120); with `cmd_valid = 0` the word is not looked at
(R45). -/
def clockEdge (rst cmdValid : Bool) (w : Command) (s : State) : Out :=
  if rst then .next (resetEdge s)
  else if cmdValid then commandEdge (decode w) s
  else .next (idleEdge s)

/-- A clock edge in which the arbiter grants the port to the timer service (R110): a TICK if it requests one, else an
idle cycle. -/
def grantEdge (s : State) : Out :=
  if timerRequests s then commandEdge .tick (timerGranted s) else .next (idleEdge (timerGranted s))

/-- The effect of one input. -/
def takeInput (i : Input) (s : State) : Out :=
  match i with
  | .clock rst cmdValid w => clockEdge rst cmdValid w s
  | .grant => grantEdge s
  | .timeUnit => timeUnitPasses s

/-- One step: the next input is taken; with none left the port is idle (R117: "it has no step of its own when no
command is presented"; log 1). -/
def cycle (s : State) : Out :=
  match s.inputs with
  | [] => .next (idleEdge s)
  | i :: rest => takeInput i { s with inputs := rest }

end Sys2Proof.Machine
end

