-- ==== Sys2Proof/Machine/Step.lean ====
section
/-! DEFINITION. The step of the machine, and how a command word is put where the step takes its next command. -/

namespace Sys2Proof.Machine

/-- One step of the machine (R40, R117). -/
def step (s : State) : Host.Outcome State Fault Refusal := cycle s

/-- `s` with the word `w` of `nbits` bits presented on the command port as the very next input (R21, R45). The machine
fetches nothing from memory: its commands come from outside (log 1). -/
def State.withFetchWord (s : State) (nbits w : Nat) : State :=
  presentWord (BitVec.ofNat 20 (w % 2 ^ nbits)) s

end Sys2Proof.Machine
end

