-- ==== Sys2Proof/Safety.lean ====
section
/-! DEFINITION. The words the statements use: runs over command words, the modes of R102, the position of R89, the frame
sequence of R84, the invariant of R24, and what can be told apart from outside (R130). -/

namespace Sys2Proof.Machine

/-! ## Runs -/

/-- `n` steps of the machine. -/
def runSteps (n : Nat) (s : State) : Out := Host.Core.run Sys2Proof.core n s

/-- The state with these command words presented first, one a cycle (R21, R45). -/
def withWords (ws : List Command) (s : State) : State :=
  { s with inputs := ws.map (fun w => Input.clock false true w) ++ s.inputs }

/-- Presenting these words to `s`, one a cycle, leads to `t`. -/
def RunsWords (ws : List Command) (s t : State) : Prop := runSteps ws.length (withWords ws s) = .next t

/-- The command an input makes the machine execute, if it does: a word with `cmd_valid = 1` and `rst = 0`, or the tick
the timer service is granted. -/
def commandOf (i : Input) (s : State) : Option Instr :=
  match i with
  | .clock rst cmdValid w => if !rst && cmdValid then some (decode w) else none
  | .grant => if timerRequests s then some .tick else none
  | .timeUnit => none

/-- The command the next step executes, if it executes one. -/
def nextCommand (s : State) : Option Instr :=
  match s.inputs with
  | [] => none
  | i :: _ => commandOf i s

/-- The input is a clock edge with `rst = 1` (R120). -/
def isResetInput : Input → Bool
  | .clock rst _ _ => rst
  | .grant => false
  | .timeUnit => false

/-- The next step is a reset edge (R120). -/
def nextIsReset (s : State) : Bool :=
  match s.inputs with
  | [] => false
  | i :: _ => isResetInput i

/-- The next step is a time unit of the timer service (R110), and no clock edge. -/
def nextIsTimeUnit (s : State) : Bool :=
  match s.inputs with
  | [] => false
  | i :: _ => i == .timeUnit

/-! ## Modes and acceptance (R102) -/

/-- The reachable combinations of `(ENC, VALID, RUN)` (R102). -/
inductive Mode
  /-- `000`: idle and empty. -/
  | empty
  /-- `100`: encode open. -/
  | encodeOpen
  /-- `010`: sequence ready. -/
  | ready
  /-- `011`: running. -/
  | running
deriving DecidableEq, Repr

/-- The mode of three flags `ENC`, `VALID`, `RUN`; none for a combination that no run reaches. -/
def modeOfFlags (enc valid run : Bool) : Option Mode :=
  match enc, valid, run with
  | false, false, false => some .empty
  | true, false, false => some .encodeOpen
  | false, true, false => some .ready
  | false, true, true => some .running
  | _, _, _ => none

/-- The mode of a state (R102). -/
def modeOf (s : State) : Option Mode := modeOfFlags s.enc s.valid s.run

/-- The encoder's commands (R65). -/
def isEncoderCommand : Instr → Bool
  | .clr | .push _ | .fin => true
  | .nop | .start _ | .tick | .reconf _ | .stop => false
  | .reserved8 | .reserved9 | .reservedA | .reservedB => false
  | .reservedC | .reservedD | .reservedE | .reservedF => false

/-- The reserved opcodes `0x8` to `0xF` (R48). -/
def isReserved (i : Instr) : Bool := decide (8 ≤ i.opcode.toNat)

/-- The cells of R102: which command is executed in which mode. -/
def executedIn (i : Instr) (m : Mode) : Bool :=
  match i with
  | .clr => m != .running
  | .push _ => m == .encodeOpen
  | .fin => m == .encodeOpen
  | .start _ => m == .ready || m == .running
  | .tick => m == .running
  | .nop | .reconf _ | .stop => true
  | .reserved8 | .reserved9 | .reservedA | .reservedB => true
  | .reservedC | .reservedD | .reservedE | .reservedF => true

/-- The mode after a command, as the cells of R102 say; `ovf` is `OVF` before it. -/
def modeAfter (i : Instr) (ovf : Bool) (m : Mode) : Mode :=
  match i with
  | .clr => if m = .running then .running else .encodeOpen
  | .fin => if m = .encodeOpen then (if ovf then .empty else .ready) else m
  | .start _ => if m = .ready then .running else m
  | .stop => if m = .running then .ready else m
  | .nop | .push _ | .tick | .reconf _ => m
  | .reserved8 | .reserved9 | .reservedA | .reservedB => m
  | .reservedC | .reservedD | .reservedE | .reservedF => m

/-! ## The sequencer's position and its frames (R84, R89) -/

/-- `pos = 2*idx + (1 - phase)` (R89). -/
def position (s : State) : Nat := 2 * s.idx.toNat + (1 - s.phase.toNat)

/-- `pos` after a command (R89), in terms of the state before it. -/
def positionAfter (i : Instr) (s : State) : Nat :=
  match i with
  | .start _ => if s.valid then 0 else position s
  | .stop => 0
  | .tick => if s.run && !s.pend then (position s + 1) % (2 * s.len.toNat) else position s
  | .nop | .clr | .push _ | .fin | .reconf _ => position s
  | .reserved8 | .reserved9 | .reservedA | .reservedB => position s
  | .reservedC | .reservedD | .reservedE | .reservedF => position s

/-- The interval a command hands to the timer service (R108), if it hands one. -/
def intervalLoadedBy (i : Instr) (s : State) : Option Interval :=
  match i with
  | .start v => if s.valid then some v else none
  | .tick => if s.run && s.pend then some s.tickInterval else none
  | .nop | .clr | .push _ | .fin | .reconf _ | .stop => none
  | .reserved8 | .reserved9 | .reservedA | .reservedB => none
  | .reservedC | .reservedD | .reservedE | .reservedF => none

/-- The refusal marks a command leaves (R101, log 6). -/
def marksLeftBy (i : Instr) (s : State) : List Mark :=
  match i with
  | .clr => if s.run then [.ignoredClr] else []
  | .push _ => if s.enc then [] else [.ignoredPush]
  | .fin => if s.enc then [] else [.ignoredFin]
  | .start _ => if s.valid then [] else [.ignoredStart]
  | .tick => if s.run then [] else [.ignoredTick]
  | .nop | .reconf _ | .stop => []
  | .reserved8 | .reserved9 | .reservedA | .reservedB => [.reservedOpcode]
  | .reservedC | .reservedD | .reservedE | .reservedF => [.reservedOpcode]

/-- `F(t)` (R84): the frame of the tick after `t` normal ticks, from the buffer and length of a state. -/
def frameAfter (s : State) (t : Nat) : Frame :=
  withClock (decide (t % 2 = 0)) (slotAt s.fb (t / 2 % s.len.toNat))

/-- How many normal ticks a list of emissions holds. -/
def steadyCount (es : List Emission) : Nat := (es.filter (·.steady)).length

/-- The emitted trace with pending emissions removed (R94). -/
def steadyFrames (es : List Emission) : List Frame := (es.filter (·.steady)).map (·.frame)

/-! ## The invariant (R24, R122) -/

/-- The invariants of R24 except I3 (which I1 and I2 give) and I7 (which speaks of the history: see
`Obligations.CommandsComputeEncode`), the canonical form of the frame buffer, and R122's reason why no unwritten slot is
ever read: the slots of the finished sequence, and those of the closed pairs of an open encode, have been written. -/
structure Inv (s : State) : Prop where
  /-- The frame buffer is in its canonical form. -/
  memWf : Memory.wf s.fb = true
  /-- I1 -/
  openNotValid : s.enc = true → s.valid = false
  /-- I2 -/
  runningValid : s.run = true → s.valid = true
  /-- I4 -/
  lenInRange : s.valid = true → 4 ≤ s.len.toNat ∧ s.len.toNat ≤ Config.nMax
  /-- I5 -/
  idxInSequence : s.run = true → s.idx.toNat < s.len.toNat
  /-- I6 -/
  cntInRange : s.enc = true → 4 ≤ s.cnt.toNat ∧ s.cnt.toNat ≤ Config.nMax
  /-- I8 -/
  idleAtStart : s.run = false → s.idx = 0#8 ∧ s.phase = true
  /-- I9 -/
  validNoOverflow : s.valid = true → s.ovf = false
  /-- R122: every slot of the finished sequence has been written. -/
  sequenceWritten : s.valid = true → ∀ j, j < s.len.toNat → (Memory.read? s.fb j).isSome = true
  /-- R122: every slot of a closed pair of the open encode has been written. -/
  pairsWritten : s.enc = true → ∀ j, j < s.cnt.toNat - s.cnt.toNat % 2 → (Memory.read? s.fb j).isSome = true

/-- What keeps the timer service counting while the core runs (R109, R110): a load waits to be taken, or the count is
inside its period. -/
def TimerInv (s : State) : Prop :=
  s.run = true → s.timer.loadSeen.isSome = true ∨
    (0 < s.timer.tcnt.toNat ∧ s.timer.tcnt.toNat ≤ s.timer.period.toNat)

/-! ## Safe runs and what can be seen -/

/-- The host has kept the protocol so far: no refusal mark (R101, D26). -/
def protocolKept (s : State) : Bool := s.marks.isEmpty

/-- Two states that differ at most where nothing can read: slots outside the sequence (or outside the closed pairs of an
open encode), stored clock bits, and `hold` while no character waits (R26, R122, R130). -/
structure Alike (s t : State) : Prop where
  /-- Every field but `FB` and `hold` is the same: all registers, outputs, inputs and records. -/
  same : t = { s with fb := t.fb, hold := t.hold }
  holdSame : s.enc = true → s.cntOdd = true → s.hold = t.hold
  sequenceSame : s.valid = true → ∀ j, j < s.len.toNat → dataBits (slotAt s.fb j) = dataBits (slotAt t.fb j)
  pairsSame : s.enc = true → ∀ j, j < s.cnt.toNat - s.cnt.toNat % 2 →
    dataBits (slotAt s.fb j) = dataBits (slotAt t.fb j)

end Sys2Proof.Machine
end

