-- ==== Sys2Proof/Certificates/Slice0/Obligations.lean ====
section
/-! DEFINITION. The statements for the provers. Each docstring names the rule of `spec/` it formalises. "Ignored" is stated
as: the next state is the old one but for the model's own refusal marks, about which these statements say nothing
(log 6); the marks have a statement of their own. -/

open Sys2Proof Sys2Proof.Machine

/-! ## Encoding -/

/-- R45 to R47: decoding the word of any command gives the command back, with every operand. -/
def Obligations.DecodeOfEncode : Prop :=
  ∀ i : Instr, i.wellFormed = true → decode (encode i) = i

/-- R47: the opcode map, by match and mask; every word falls under exactly one row, and its command is the row's. -/
def Obligations.DecodeFollowsOpcodeMap : Prop :=
  ∀ w : Command,
    (w &&& 0xF0000#20 = 0x00000#20 ∧ decode w = .nop) ∨
    (w &&& 0xF0000#20 = 0x10000#20 ∧ decode w = .clr) ∨
    (w &&& 0xF0000#20 = 0x20000#20 ∧ decode w = .push (BitVec.ofNat 8 w.toNat)) ∨
    (w &&& 0xF0000#20 = 0x30000#20 ∧ decode w = .fin) ∨
    (w &&& 0xF0000#20 = 0x40000#20 ∧ decode w = .start (BitVec.ofNat 16 w.toNat)) ∨
    (w &&& 0xF0000#20 = 0x50000#20 ∧ decode w = .tick) ∨
    (w &&& 0xF0000#20 = 0x60000#20 ∧ decode w = .reconf (BitVec.ofNat 16 w.toNat)) ∨
    (w &&& 0xF0000#20 = 0x70000#20 ∧ decode w = .stop) ∨
    (w &&& 0xF0000#20 = 0x80000#20 ∧ decode w = .reserved8) ∨
    (w &&& 0xF0000#20 = 0x90000#20 ∧ decode w = .reserved9) ∨
    (w &&& 0xF0000#20 = 0xA0000#20 ∧ decode w = .reservedA) ∨
    (w &&& 0xF0000#20 = 0xB0000#20 ∧ decode w = .reservedB) ∨
    (w &&& 0xF0000#20 = 0xC0000#20 ∧ decode w = .reservedC) ∨
    (w &&& 0xF0000#20 = 0xD0000#20 ∧ decode w = .reservedD) ∨
    (w &&& 0xF0000#20 = 0xE0000#20 ∧ decode w = .reservedE) ∨
    (w &&& 0xF0000#20 = 0xF0000#20 ∧ decode w = .reservedF)

/-- R46: two words with the same opcode and the same operand bits of the form are the same command: PUSH reads bits 7 to
0, START and RECONF bits 15 to 0, every other opcode none; and the operands are those bits as plain numbers. -/
def Obligations.OnlyOperandBitsMatter : Prop :=
  (∀ w w' : Command, opField w = opField w' →
    (opField w = 0x2#4 → w.toNat % 2 ^ 8 = w'.toNat % 2 ^ 8) →
    (opField w = 0x4#4 ∨ opField w = 0x6#4 → w.toNat % 2 ^ 16 = w'.toNat % 2 ^ 16) →
    decode w = decode w') ∧
  (∀ w : Command, opField w = 0x2#4 → ∃ c : CharCode, decode w = .push c ∧ c.toNat = w.toNat % 2 ^ 8) ∧
  (∀ w : Command, opField w = 0x4#4 → ∃ v : Interval, decode w = .start v ∧ v.toNat = w.toNat % 2 ^ 16) ∧
  (∀ w : Command, opField w = 0x6#4 → ∃ v : Interval, decode w = .reconf v ∧ v.toNat = w.toNat % 2 ^ 16)

/-- R51: the words of the assembler notation. -/
def Obligations.AssemblerWords : Prop :=
  encode .nop = 0x00000#20 ∧ encode .clr = 0x10000#20 ∧ encode .fin = 0x30000#20 ∧ encode .tick = 0x50000#20 ∧
  encode .stop = 0x70000#20 ∧
  (∀ c : CharCode, (encode (.push c)).toNat = 0x20000 + c.toNat) ∧
  (∀ v : Interval, (encode (.start v)).toNat = 0x40000 + v.toNat) ∧
  (∀ v : Interval, (encode (.reconf v)).toNat = 0x60000 + v.toNat)

/-- R52: what the two pseudo-instructions expand to. -/
def Obligations.PseudoInstructionsExpand : Prop :=
  (∀ text : List CharCode,
    (AsmLine.encodeText text).expand = [Instr.clr] ++ text.map Instr.push ++ [Instr.fin] ∧
    (AsmLine.encodeText text).expand.length = text.length + 2) ∧
  (AsmLine.encodeText []).expand = [Instr.clr, Instr.fin] ∧
  (∀ k : Nat, (AsmLine.tickTimes k).expand = List.replicate k Instr.tick)

/-- The decoder vectors of `95_test_vectors.md` section 4, written out from the encoding. -/
def Obligations.WrittenOutWordsDecode : Prop :=
  decode 0x20061#20 = .push 0x61#8 ∧ decode 0x40000#20 = .start 0#16 ∧ decode 0x4FFFF#20 = .start 65535#16 ∧
  decode 0x6FFFF#20 = .reconf 65535#16 ∧ decode 0x50001#20 = .tick ∧ decode 0x3BEEF#20 = .fin ∧
  decode 0x7FFFF#20 = .stop ∧ decode 0x1FFFF#20 = .clr ∧ decode 0x0ABCD#20 = .nop ∧ decode 0x9FFFF#20 = .reserved9

/-! ## The pure functions -/

/-- R60: the hex-digit mapping on all 256 codes. -/
def Obligations.NibbleIsHexDigitValue : Prop :=
  ∀ c : CharCode, (nibble c).toNat =
    if 0x30 ≤ c.toNat ∧ c.toNat ≤ 0x39 then c.toNat - 0x30
    else if 0x41 ≤ c.toNat ∧ c.toNat ≤ 0x46 then c.toNat - 0x41 + 10
    else if 0x61 ≤ c.toNat ∧ c.toNat ≤ 0x66 then c.toNat - 0x61 + 10
    else 0

/-- R61: row `v` is `(0, v[0], v[1], v[2], v[3])`, packed `2*v`, and no two rows are equal. -/
def Obligations.LutRowIsLsbFirst : Prop :=
  (∀ v : Nibble, (lut v).getLsbD 0 = false ∧ (lut v).getLsbD 1 = v.getLsbD 0 ∧ (lut v).getLsbD 2 = v.getLsbD 1 ∧
    (lut v).getLsbD 3 = v.getLsbD 2 ∧ (lut v).getLsbD 4 = v.getLsbD 3 ∧ (lut v).toNat = 2 * v.toNat) ∧
  (∀ v w : Nibble, lut v = lut w → v = w)

/-- R63: every frame of `encode(s)` by its index: the character of the partner position `j XOR 1`, zeros where that
position does not exist. -/
def Obligations.EncodeSwapsPairs : Prop :=
  ∀ s : List CharCode,
    (encodeChallenge s).length = s.length + 4 ∧
    ∀ j, j < s.length + 4 → (encodeChallenge s)[j]? =
      some (match (code s)[j ^^^ 1]? with
        | some c => lut (nibble c)
        | none => 0#5)

/-- R64: length, totality, bit order, swap, fixed head, and which strings encode alike. -/
def Obligations.EncodeProperties : Prop :=
  (∀ s : List CharCode, (encodeChallenge s).length = (code s).length) ∧
  (∀ v : Nibble, ∀ k : Nat, k < 4 → (lut v).getLsbD (k + 1) = v.getLsbD k) ∧
  (∀ (s : List CharCode) (i : Nat) (a b : CharCode), i % 2 = 0 → (code s)[i]? = some a → (code s)[i + 1]? = some b →
    (encodeChallenge s)[i]?.map dataBits = some (nibble b) ∧
    (encodeChallenge s)[i + 1]?.map dataBits = some (nibble a)) ∧
  (∀ s : List CharCode, (encodeChallenge s).take 4 = [lut 15#4, lut 0#4, lut 15#4, lut 15#4]) ∧
  (∀ s s' : List CharCode, s.length = s'.length → s.length % 2 = 0 →
    (encodeChallenge s = encodeChallenge s' ↔ s.map nibble = s'.map nibble)) ∧
  (∀ s s' : List CharCode, s.length = s'.length → s.length % 2 = 1 →
    (encodeChallenge s = encodeChallenge s' ↔ s.dropLast.map nibble = s'.dropLast.map nibble))

/-! ## The encoder's commands -/

/-- R66: CLR, with everything it leaves alone; ignored while running; and the rule's remark that its effect is that of
setting `cnt` to 0 and pushing the four preamble characters through R67 (`hold` apart, which CLR does not write and no one
reads then). -/
def Obligations.ClrBeginsEncode : Prop :=
  (∀ s : State, s.run = false → ∃ t, exec .clr s = .next t ∧
    t = { s with fb := t.fb, cnt := 4#9, enc := true, valid := false, ovf := false } ∧
    Memory.read? t.fb 0 = some 0x1E#5 ∧ Memory.read? t.fb 1 = some 0x00#5 ∧
    Memory.read? t.fb 2 = some 0x1E#5 ∧ Memory.read? t.fb 3 = some 0x1E#5 ∧
    ∀ j, 4 ≤ j → Memory.read? t.fb j = Memory.read? s.fb j) ∧
  (∀ s : State, s.run = true → ∃ m, exec .clr s = .next { s with marks := m }) ∧
  (∀ s : State, s.run = false → ∃ t a b c d,
    exec .clr s = .next t ∧
    exec (.push 0x30#8) { s with cnt := 0#9, enc := true, valid := false, ovf := false } = .next a ∧
    exec (.push 0x46#8) a = .next b ∧ exec (.push 0x46#8) b = .next c ∧ exec (.push 0x46#8) c = .next d ∧
    t = { d with fb := t.fb, hold := t.hold } ∧
    ∀ j, Memory.read? t.fb j = Memory.read? d.fb j)

/-- R67: PUSH with a full buffer, opening a pair, closing a pair, and ignored. The slots of a pair are computed by the
model's `slotIndex`, as the meaning computes them. -/
def Obligations.PushTakesCharacter : Prop :=
  (∀ (s : State) (c : CharCode), s.enc = true → s.cnt.toNat = 256 → exec (.push c) s = .next { s with ovf := true }) ∧
  (∀ (s : State) (c : CharCode), s.enc = true → s.cnt.toNat ≠ 256 → s.cnt.toNat % 2 = 0 →
    exec (.push c) s = .next { s with hold := nibble c, cnt := s.cnt + 1#9 }) ∧
  (∀ (s : State) (c : CharCode), s.enc = true → s.cnt.toNat % 2 = 1 → ∃ t, exec (.push c) s = .next t ∧
    t = { s with fb := t.fb, cnt := s.cnt + 1#9 } ∧
    Memory.read? t.fb (slotIndex (s.cnt - 1#9)).toNat = some (lut (nibble c)) ∧
    Memory.read? t.fb (slotIndex s.cnt).toNat = some (lut s.hold) ∧
    ∀ j, j ≠ (slotIndex (s.cnt - 1#9)).toNat → j ≠ (slotIndex s.cnt).toNat →
      Memory.read? t.fb j = Memory.read? s.fb j) ∧
  (∀ (s : State) (c : CharCode), s.enc = false → ∃ m, exec (.push c) s = .next { s with marks := m })

/-- R68: FIN with an even and an odd count, and ignored. -/
def Obligations.FinPublishesResult : Prop :=
  (∀ s : State, s.enc = true → s.cnt.toNat % 2 = 0 →
    exec .fin s = .next { s with len := s.cnt, enc := false, valid := !s.ovf }) ∧
  (∀ s : State, s.enc = true → s.cnt.toNat % 2 = 1 → ∃ t, exec .fin s = .next t ∧
    t = { s with fb := t.fb, len := s.cnt, enc := false, valid := !s.ovf } ∧
    Memory.read? t.fb (slotIndex (s.cnt - 1#9)).toNat = some 0#5 ∧
    ∀ j, j ≠ (slotIndex (s.cnt - 1#9)).toNat → Memory.read? t.fb j = Memory.read? s.fb j) ∧
  (∀ s : State, s.enc = false → ∃ m, exec .fin s = .next { s with marks := m })

/-- R31: while an encode is open and a character waits, the slots that PUSH and FIN compute are `cnt - 1` and `cnt`
themselves, both inside the buffer. -/
def Obligations.PairSlotsAreInsideTheBuffer : Prop :=
  ∀ s : State, Inv s → s.enc = true → s.cnt.toNat % 2 = 1 →
    (slotIndex (s.cnt - 1#9)).toNat = s.cnt.toNat - 1 ∧ (slotIndex s.cnt).toNat = s.cnt.toNat ∧ s.cnt.toNat < 256

/-- R69: from any state with `RUN = 0`, CLR, then any words whose accepted-encoder commands are exactly the PUSHes of the
characters of a string (anything else may stand between), then FIN, leave `encode` of the string in the frame buffer;
a string too long leaves `OVF` and no valid result, and `encode` of its first 252 characters. -/
def Obligations.CommandsComputeEncode : Prop :=
  ∀ (s : State) (chars : List CharCode) (first last : Command) (body : List Command),
    s.run = false → decode first = .clr → decode last = .fin →
    (body.map decode).filter isEncoderCommand = chars.map Instr.push →
    ∃ t, RunsWords (first :: body ++ [last]) s t ∧ t.enc = false ∧ t.inputs = s.inputs ∧
      (chars.length ≤ 252 →
        t.len.toNat = chars.length + 4 ∧ t.valid = true ∧ t.ovf = false ∧
        ∀ j, j < chars.length + 4 → Memory.read? t.fb j = (encodeChallenge chars)[j]?) ∧
      (252 < chars.length →
        t.ovf = true ∧ t.valid = false ∧
        ∀ j, j < 256 → Memory.read? t.fb j = (encodeChallenge (chars.take 252))[j]?)

/-- R68 with R67 (duty HD6): once a character has been dropped, nothing but a CLR (or a reset) lets a sequence be shown:
whatever other words follow, nothing is emitted. -/
def Obligations.OverflowLocksOutStart : Prop :=
  ∀ (s : State) (ws : List Command), s.ovf = true → s.valid = false → s.run = false →
    (∀ w ∈ ws, decode w ≠ .clr) →
    ∃ t, RunsWords ws s t ∧ t.ovf = true ∧ t.valid = false ∧ t.run = false ∧
      t.trace = s.trace ∧ t.frameO = s.frameO ∧ t.loads = s.loads

/-! ## The sequencer's commands -/

/-- R80: START, with everything it leaves alone; `timer_load(v)` pulses `tmr_load_o` and is recorded. -/
def Obligations.StartBeginsShowing : Prop :=
  (∀ (s : State) (v : Interval), s.valid = true → exec (.start v) s = .next
    { s with idx := 0#8, phase := true, tickInterval := v, pend := false, run := true, tmrLoadO := true,
             loads := s.loads ++ [v] }) ∧
  (∀ (s : State) (v : Interval), s.valid = false → ∃ m, exec (.start v) s = .next { s with marks := m })

/-- R81: a TICK is ignored while not running, and otherwise emits exactly one frame, as a pending tick or a normal one. -/
def Obligations.TickIsGatedByRun : Prop :=
  (∀ s : State, s.run = false → ∃ m, exec .tick s = .next { s with marks := m }) ∧
  (∀ s : State, s.run = true → ∃ t f, exec .tick s = .next t ∧ t.frameO = f ∧ t.frameStbO = true ∧
    t.trace = s.trace ++ [{ frame := f, steady := !s.pend }])

/-- R82: a normal TICK. The frame is the slot's data positions under the clock bit `phase`, both as they were before. -/
def Obligations.NormalTickEmitsThenSteps : Prop :=
  ∀ s : State, s.run = true → s.pend = false → ∃ t, exec .tick s = .next t ∧
    t = { s with
          fb := t.fb
          frameO := packFrame s.phase (dataBits (slotAt s.fb s.idx.toNat))
          frameStbO := true
          trace := s.trace ++ [{ frame := packFrame s.phase (dataBits (slotAt s.fb s.idx.toNat)), steady := true }]
          phase := !s.phase
          idx := t.idx } ∧
    (s.phase = true → t.idx = s.idx) ∧
    (s.phase = false → s.idx.toNat + 1 = s.len.toNat → t.idx = 0#8) ∧
    (s.phase = false → s.idx.toNat + 1 ≠ s.len.toNat → t.idx = s.idx + 1#8) ∧
    Memory.read? t.fb s.idx.toNat = some (packFrame s.phase (dataBits (slotAt s.fb s.idx.toNat))) ∧
    ∀ j, j ≠ s.idx.toNat → Memory.read? t.fb j = Memory.read? s.fb j

/-- R83: a pending TICK: the flag cleared, the timer reloaded with the new interval, the frame emitted, nothing stepped
and nothing stored. -/
def Obligations.PendingTickReschedules : Prop :=
  ∀ s : State, s.run = true → s.pend = true → exec .tick s = .next
    { s with
      pend := false
      tmrLoadO := true
      loads := s.loads ++ [s.tickInterval]
      frameO := packFrame s.phase (dataBits (slotAt s.fb s.idx.toNat))
      frameStbO := true
      trace := s.trace ++ [{ frame := packFrame s.phase (dataBits (slotAt s.fb s.idx.toNat)), steady := false }] }

/-- R85: RECONF, in every state. -/
def Obligations.ReconfOnlySetsValueAndFlag : Prop :=
  ∀ (s : State) (v : Interval), exec (.reconf v) s = .next { s with tickInterval := v, pend := true }

/-- R86: STOP, in every state: the interval, the encode result and `frame_o` are kept; and after it every TICK is ignored
until the next START: whatever words follow other than START, nothing is emitted and the timer stays cancelled. -/
def Obligations.StopTearsDown : Prop :=
  (∀ s : State, exec .stop s = .next { s with run := false, pend := false, idx := 0#8, phase := true }) ∧
  (∀ (s : State) (first : Command) (ws : List Command), decode first = .stop →
    (∀ w ∈ ws, ∀ x, decode w ≠ .start x) →
    ∃ t, RunsWords (first :: ws) s t ∧ t.trace = s.trace ∧ t.frameO = s.frameO ∧ t.tmrEnO = false)

/-- R87: NOP, in every state, and on the port the same as a cycle with `cmd_valid = 0`. -/
def Obligations.NopIsIdle : Prop :=
  (∀ s : State, exec .nop s = .next s) ∧
  (∀ (s : State) (w x : Command) (rest : List Input), decode w = .nop →
    step { s with inputs := .clock false true w :: rest } = step { s with inputs := .clock false false x :: rest })

/-- R48: every reserved opcode executes as NOP. That it leaves the model's refusal mark is the model's choice (log 6). -/
def Obligations.ReservedExecutesAsNop : Prop :=
  ∀ s : State, ∀ i ∈ [Instr.reserved8, .reserved9, .reservedA, .reservedB, .reservedC, .reservedD, .reservedE, .reservedF],
    exec i s = .next { s with marks := s.marks ++ [.reservedOpcode] }

/-- R101, D26, U9, U10 and the model's choice of log 6: exactly the ignored and the reserved commands leave a refusal
mark, one of their own kind. -/
def Obligations.MarksAreLeftByIgnoredAndReserved : Prop :=
  ∀ (i : Instr) (s t : State), exec i s = .next t → t.marks = s.marks ++ marksLeftBy i s

/-! ## Rules about all commands -/

/-- R100: every command in every state completes, as executed or as ignored. -/
def Obligations.EveryCommandCompletes : Prop :=
  ∀ (i : Instr) (s : State), ∃ t, exec i s = .next t ∧ (accepted i s = false → t = { s with marks := t.marks })

/-- R102: the acceptance table and its mode changes, cell by cell. -/
def Obligations.AcceptanceTable : Prop :=
  ∀ (i : Instr) (s t : State) (m : Mode), modeOf s = some m → exec i s = .next t →
    accepted i s = executedIn i m ∧ modeOf t = some (modeAfter i s.ovf m) ∧
    (executedIn i m = false → t = { s with marks := t.marks }) ∧
    (i = .nop ∨ isReserved i = true → t = { s with marks := t.marks }) ∧
    (i = .stop → m ≠ .running → Inv s → t = { s with pend := false })

/-- R23: `frame_o` and the emitted trace change by a TICK of a running sequencer only, and then together; every other
command, every idle cycle and every time unit keeps them. A reset edge clears `frame_o` and emits nothing (R121). -/
def Obligations.OnlyRunningTicksEmit : Prop :=
  ∀ s t : State, step s = .next t →
    (nextCommand s = some .tick ∧ s.run = true ∧ ∃ b, t.trace = s.trace ++ [{ frame := t.frameO, steady := b }]) ∨
    (t.trace = s.trace ∧ (t.frameO = s.frameO ∨ (nextIsReset s = true ∧ t.frameO = 0#5)))

/-- R29: who may write which state. -/
def Obligations.OwnershipOfState : Prop :=
  ∀ s t : State, step s = .next t → nextIsReset s = false →
    ((t.idx ≠ s.idx ∨ t.phase ≠ s.phase) →
      (∃ v, nextCommand s = some (.start v)) ∨ nextCommand s = some .tick ∨ nextCommand s = some .stop) ∧
    (t.tickInterval ≠ s.tickInterval →
      (∃ v, nextCommand s = some (.start v)) ∨ (∃ v, nextCommand s = some (.reconf v))) ∧
    (t.pend ≠ s.pend →
      (∃ v, nextCommand s = some (.reconf v)) ∨ nextCommand s = some .tick ∨ (∃ v, nextCommand s = some (.start v)) ∨
      nextCommand s = some .stop) ∧
    (t.run ≠ s.run → (∃ v, nextCommand s = some (.start v)) ∨ nextCommand s = some .stop) ∧
    ((t.cnt ≠ s.cnt ∨ t.hold ≠ s.hold ∨ t.len ≠ s.len ∨ t.enc ≠ s.enc ∨ t.valid ≠ s.valid ∨ t.ovf ≠ s.ovf ∨
        ∃ j, dataBits (slotAt t.fb j) ≠ dataBits (slotAt s.fb j)) →
      ∃ i, nextCommand s = some i ∧ isEncoderCommand i = true)

/-- R43: a running sequence cannot be modified under the sequencer: as long as it runs on, its length and the data
positions of its slots stay. -/
def Obligations.RunningSequenceIsNotModified : Prop :=
  ∀ s t : State, Inv s → s.run = true → step s = .next t → t.run = true →
    t.len = s.len ∧ t.valid = true ∧ ∀ j, dataBits (slotAt t.fb j) = dataBits (slotAt s.fb j)

/-! ## Steps, the port and reset -/

/-- R45, R50: a step with a command word on the port runs exactly the command the word decodes to, on the state whose
one-cycle pulses have fallen (R22). Then the timer service sees the outputs the command leaves (R108, R109): that its
registers are in State and that it notes a load and drops a due tick at this same edge is the model's choice (log 10,
log 11, log 12). -/
def Obligations.StepRunsDecodedCommand : Prop :=
  ∀ (s : State) (w : Command) (rest : List Input) (i : Instr), decode w = i → i.wellFormed = true →
    s.inputs = .clock false true w :: rest →
    step s = match exec i { s with inputs := rest, frameStbO := false, tmrLoadO := false } with
      | .next t => .next (timerSees t)
      | .fault r => .fault r
      | .refused r => .refused r

/-- R45: with `cmd_valid = 0` the word is not looked at and the cycle is idle; the pulses fall (R22). The timer service drops
a due tick while it is disabled (R109 c), at the clock edge by the model's choice (log 12). The same holds where nothing is
presented any more, which is the model's choice (log 1). -/
def Obligations.IdleCycleKeepsState : Prop :=
  (∀ (s : State) (w : Command) (rest : List Input), s.inputs = .clock false false w :: rest →
    step s = .next { s with
      inputs := rest
      frameStbO := false
      tmrLoadO := false
      timer := { s.timer with due := s.timer.due && s.run } }) ∧
  (∀ s : State, s.inputs = [] → step s = .next { s with
    frameStbO := false
    tmrLoadO := false
    timer := { s.timer with due := s.timer.due && s.run } })

/-- R120, R121: a reset edge, from any state and whatever the command port carries. `FB` and `hold` are named by no clause:
the spec leaves them unspecified. -/
def Obligations.ResetEdgeSetsEveryRegister : Prop :=
  ∀ (s : State) (cmdValid : Bool) (w : Command) (rest : List Input),
    s.inputs = .clock true cmdValid w :: rest → ∃ t, step s = .next t ∧
      t.enc = false ∧ t.valid = false ∧ t.ovf = false ∧ t.pend = false ∧ t.run = false ∧ t.phase = true ∧
      t.idx = 0#8 ∧ t.cnt = 0#9 ∧ t.len = 0#9 ∧ t.tickInterval = 50#16 ∧ t.frameO = 0#5 ∧
      t.frameStbO = false ∧ t.tmrLoadO = false ∧ t.tmrEnO = false ∧ t.statusO = 0#5 ∧ t.tmrIntervalO = 50#16 ∧
      modeOf t = some .empty ∧ t.trace = s.trace

/-- R28: the values of the table at `State.reset`. `FB`, `hold` and the timer service's period are named by no clause: the
spec gives them none. -/
def Obligations.ResetStateValues : Prop :=
  State.reset.cnt = 0#9 ∧ State.reset.len = 0#9 ∧ State.reset.enc = false ∧ State.reset.valid = false ∧
  State.reset.ovf = false ∧ State.reset.idx = 0#8 ∧ State.reset.phase = true ∧ State.reset.tickInterval = 50#16 ∧
  State.reset.pend = false ∧ State.reset.run = false ∧ State.reset.frameO = 0b00000#5 ∧
  State.reset.frameStbO = false ∧ State.reset.tmrLoadO = false ∧ State.reset.statusO = 0b00000#5 ∧
  State.reset.tmrIntervalO = 50#16 ∧ State.reset.tmrEnO = false

/-- R22: `status_o` bit by bit, and the outputs that follow a register. -/
def Obligations.StatusAndOutputPorts : Prop :=
  ∀ s : State, s.statusO.getLsbD 4 = s.ovf ∧ s.statusO.getLsbD 3 = s.pend ∧ s.statusO.getLsbD 2 = s.run ∧
    s.statusO.getLsbD 1 = s.valid ∧ s.statusO.getLsbD 0 = s.enc ∧ s.tmrIntervalO = s.tickInterval ∧
    s.tmrEnO = s.run ∧ s.cmdReady = true

/-- R22: the pulses are high for exactly the cycle after the command that raised them: after every clock edge
`frame_stb_o` says whether that edge executed a TICK that emitted, and `tmr_load_o` whether it executed a `timer_load`
(an accepted START or a pending TICK). -/
def Obligations.PulsesLastOneCycle : Prop :=
  ∀ s t : State, nextIsTimeUnit s = false → step s = .next t →
    (t.frameStbO = true ↔ nextCommand s = some .tick ∧ s.run = true) ∧
    (t.tmrLoadO = true ↔ (∃ v, nextCommand s = some (.start v) ∧ s.valid = true) ∨
      (nextCommand s = some .tick ∧ s.run = true ∧ s.pend = true))

/-! ## The invariant -/

/-- R24, R122: every step keeps the invariant. -/
def Obligations.StepKeepsInvariant : Prop :=
  ∀ s t : State, Inv s → step s = .next t → Inv t

/-- R24, R28: the reset state satisfies the invariant. -/
def Obligations.ResetSatisfiesInvariant : Prop := Inv State.reset

/-- R122, U5: no TICK of a running sequencer reads a slot that nothing has written. -/
def Obligations.TickReadsWrittenSlot : Prop :=
  ∀ s : State, Inv s → s.run = true → ∃ f, Memory.read? s.fb s.idx.toNat = some f ∧ slotAt s.fb s.idx.toNat = f

/-- R130, R26, R122: stale data is never visible: two states that differ at most where nothing can read take the same
steps for ever, with every output, every flag and the emitted trace the same. -/
def Obligations.StaleDataIsInvisible : Prop :=
  ∀ (n : Nat) (s s' t : State), Inv s → Inv s' → Alike s s' → runSteps n s = .next t →
    ∃ t', runSteps n s' = .next t' ∧ Alike t t'

/-! ## Runs of the sequencer -/

/-- R84, R94: what a run emits. After an accepted START, whatever words follow other than START and STOP: the emitted trace
with the pending emissions removed is `F(0), F(1), ...`; every emission, pending or not, is the `F` of the number of
normal ticks before it; every TICK emits one frame; and the position is that number modulo `2*len`, so that after
`2*len` normal ticks it is back at the start. -/
def Obligations.EmittedTraceOfRun : Prop :=
  ∀ (s : State) (v : Interval) (first : Command) (ws : List Command),
    Inv s → s.valid = true → decode first = .start v →
    (∀ w ∈ ws, decode w ≠ .stop ∧ ∀ x, decode w ≠ .start x) →
    ∃ t es, RunsWords (first :: ws) s t ∧ t.trace = s.trace ++ es ∧
      steadyFrames es = (List.range (steadyCount es)).map (frameAfter s) ∧
      (∀ k e, es[k]? = some e → e.frame = frameAfter s (steadyCount (es.take k))) ∧
      es.length = ((ws.map decode).filter (· == .tick)).length ∧
      position t = steadyCount es % (2 * s.len.toNat) ∧ t.run = true

/-- R89: the one counter: what each command does to `pos`, and what a TICK emits in terms of it. -/
def Obligations.CyclicCounter : Prop :=
  ∀ (s t : State) (i : Instr), Inv s → exec i s = .next t →
    position t = positionAfter i s ∧
    (i = .tick → s.run = true →
      t.frameO = withClock (decide (position s % 2 = 0)) (slotAt s.fb (position s / 2))) ∧
    (s.run = true → position s < 2 * s.len.toNat)

/-- R83 with R85: no skip. A RECONF before a TICK leaves the emitted frame as it would have been, loads the timer with
the new interval, steps nothing, and the TICK after that emits the same frame once more. The clause on `timer.loadSeen`,
the interval as the timer service noted it at the pulse (R109 d), rests on the model's choices of log 10 and log 11. -/
def Obligations.ReconfSkipsNothing : Prop :=
  ∀ (s t : State) (v : Interval) (reconf tick : Command), s.run = true → s.pend = false →
    decode reconf = .reconf v → decode tick = .tick → RunsWords [tick] s t →
    ∃ a b, RunsWords [reconf, tick] s a ∧ RunsWords [reconf, tick, tick] s b ∧
      a.frameO = t.frameO ∧ b.frameO = t.frameO ∧ a.idx = s.idx ∧ a.phase = s.phase ∧ a.pend = false ∧
      a.loads = s.loads ++ [v] ∧ b.loads = a.loads ∧ b.idx = t.idx ∧ b.phase = t.phase ∧
      a.timer.loadSeen = some v

/-- R129: a RECONF before every TICK holds the sequence for ever. -/
def Obligations.ReconfBeforeEveryTickStarves : Prop :=
  ∀ (s : State) (vs : List Interval) (tick : Command), s.run = true → decode tick = .tick →
    ∃ t, RunsWords (vs.flatMap fun v => [encode (.reconf v), tick]) s t ∧
      t.idx = s.idx ∧ t.phase = s.phase ∧ t.run = true ∧ t.fb = s.fb ∧ t.loads = s.loads ++ vs ∧
      t.trace = s.trace ++ List.replicate vs.length { frame := withClock s.phase (slotAt s.fb s.idx.toNat), steady := false }

/-- R104 (3): both orders of a RECONF and a TICK that are ready together are legal, and this is what each gives. -/
def Obligations.ArbiterOrders : Prop :=
  ∀ (s : State) (v : Interval) (reconf tick : Command), s.run = true → s.pend = false →
    decode reconf = .reconf v → decode tick = .tick →
    ∃ a b, RunsWords [reconf, tick] s a ∧ RunsWords [tick, reconf] s b ∧
      a.frameO = b.frameO ∧ a.pend = false ∧ b.pend = true ∧ a.tickInterval = v ∧ b.tickInterval = v ∧
      a.idx = s.idx ∧ a.phase = s.phase ∧ b.phase = !s.phase

/-! ## The timer service (R107 to R111) -/

/-- R110: one time unit of the reference model: a load seen, the running period, and the cancelled timer; a period of 0 is
given no meaning (U6). The model's choices: the service's registers are in State (log 10), the interval taken up is the
one shown at the pulse (log 11), and the refusal (log 13). -/
def Obligations.TimeUnitFollowsReference : Prop :=
  ∀ (s : State) (rest : List Input), s.inputs = .timeUnit :: rest →
    (∀ v, s.timer.loadSeen = some v → v ≠ 0#16 → step s = .next
      { s with inputs := rest, timer := { period := v, tcnt := v, due := false, loadSeen := none } }) ∧
    (s.timer.loadSeen = none → s.run = true → s.timer.tcnt = 1#16 → step s = .next
      { s with inputs := rest, timer := { s.timer with due := true, tcnt := s.timer.period } }) ∧
    (s.timer.loadSeen = none → s.run = true → s.timer.tcnt ≠ 1#16 → step s = .next
      { s with inputs := rest, timer := { s.timer with tcnt := s.timer.tcnt - 1#16 } }) ∧
    (s.timer.loadSeen = none → s.run = false → step s = .next
      { s with inputs := rest, timer := { s.timer with due := false } }) ∧
    (s.timer.loadSeen = some 0#16 → step s = .refused .timerPeriodZero)

/-- R100, U6 and the model's refusal of log 13: the only step without a next state is a time unit on which the timer
service takes up a period of 0. -/
def Obligations.StepStopsOnlyOnPeriodZero : Prop :=
  ∀ s : State, (∃ t, step s = .next t) ∨
    (step s = .refused .timerPeriodZero ∧ s.timer.loadSeen = some 0#16 ∧ ∃ rest, s.inputs = .timeUnit :: rest)

/-- R109 (b), (c): a granted port carries a TICK exactly when one is due and the timer is enabled; a tick due on a
cancelled timer is dropped, at the grant already (the model's reading, log 12). -/
def Obligations.GrantDeliversDueTick : Prop :=
  ∀ (s : State) (rest : List Input), s.inputs = .grant :: rest →
    (s.timer.due = true → s.run = true → ∃ t u, step s = .next t ∧
      exec .tick { s with inputs := rest, frameStbO := false, tmrLoadO := false,
                          timer := { s.timer with due := false } } = .next u ∧ t = timerSees u) ∧
    ((s.timer.due = false ∨ s.run = false) → step s = .next
      { s with inputs := rest, frameStbO := false, tmrLoadO := false, timer := { s.timer with due := false } })

/-- R109 (c): after every step that leaves the timer disabled no tick is due, and a disabled timer requests none; so a tick
that was due when STOP came is not delivered after a START, with no time unit and no grant between. That a clock edge
drops it, where R110's listing waits for a time unit, is the model's reading (log 12). -/
def Obligations.NoTickIsDueWhileCancelled : Prop :=
  (∀ s t : State, step s = .next t → t.run = false → t.timer.due = false) ∧
  (∀ s : State, s.run = false → timerRequests s = false) ∧
  (∀ (s : State) (v : Interval) (stop start : Command), s.valid = true → decode stop = .stop → decode start = .start v →
    ∃ t, RunsWords [stop, start] s t ∧ t.run = true ∧ timerRequests t = false ∧
      step { t with inputs := [.grant] } = .next { t with inputs := [], frameStbO := false, tmrLoadO := false })

/-- R109 (a), (b): a running timer that has just begun a period of `P` time units makes the next tick due after exactly
`P` of them, and no earlier. The service is the reference model of R110 (the model's choice, log 10). -/
def Obligations.TickFallsDueAfterPeriod : Prop :=
  ∀ (s : State) (k : Nat), s.run = true → s.timer.loadSeen = none → s.timer.due = false →
    s.timer.tcnt = s.timer.period → 0 < s.timer.period.toNat → k ≤ s.timer.period.toNat →
    ∃ t, runSteps k { s with inputs := List.replicate k Input.timeUnit } = .next t ∧
      t.timer.due = decide (k = s.timer.period.toNat) ∧ t.timer.period = s.timer.period ∧
      (k = s.timer.period.toNat → t.timer.tcnt = s.timer.period) ∧ t.run = true

/-- R108, R109 (d): a START and a pending TICK hand the timer service the interval they load; a RECONF alone hands it
nothing. That the service keeps it in `loadSeen` (log 11) and drops a due tick at the edge that leaves it disabled (log 12)
is the model's choice. -/
def Obligations.TimerSeesLoadsOnly : Prop :=
  ∀ (s t : State) (i : Instr), exec i { s with frameStbO := false, tmrLoadO := false } = .next t →
    (timerSees t).timer =
      { s.timer with
        loadSeen := (match intervalLoadedBy i s with
          | some v => some v
          | none => s.timer.loadSeen)
        due := s.timer.due && t.run }

/-- R109, R110: while the core runs, the timer service keeps counting: every step keeps it so. About the model's timer
service (log 10, log 11). -/
def Obligations.TimerKeepsCounting : Prop :=
  ∀ s t : State, TimerInv s → step s = .next t → TimerInv t
end

