-- ==== Sys2Proof/Laws/Encoding.lean ====
section
/-! SUPPORT. The fields of a command word (R45, R46), and the decoder by its opcode. -/

namespace Sys2Proof

/-- The opcode field of a word put together from an opcode and an operand. -/
@[simp] theorem opField_append (op : BitVec 4) (arg : BitVec 16) : opField (op ++ arg) = op := by
  ext i hi
  simp only [opField, BitVec.getElem_extractLsb', BitVec.getLsbD_append]
  rw [if_neg (by omega)]
  simp [hi]

/-- The operand field of a word put together from an opcode and an operand. -/
@[simp] theorem argField_append (op : BitVec 4) (arg : BitVec 16) : argField (op ++ arg) = arg := by
  ext i hi
  simp only [argField, BitVec.getElem_extractLsb', BitVec.getLsbD_append]
  rw [if_pos (by omega)]
  simp [hi]

/-- The character field of a word put together from an opcode and a character. -/
@[simp] theorem chrField_append (op : BitVec 4) (c : CharCode) : chrField (op ++ (0#8 ++ c)) = c := by
  ext i hi
  simp only [chrField, BitVec.getElem_extractLsb', BitVec.getLsbD_append]
  rw [if_pos (by omega), if_pos (by omega)]
  simp [hi]

/-- The decoder looks at the opcode field (R47) and at nothing else but the operand field of the row. -/
theorem decode_of_opField (w : Command) (op : BitVec 4) (h : opField w = op) :
    decode w = match op.getLsbD 3, op.getLsbD 2, op.getLsbD 1, op.getLsbD 0 with
      | false, false, false, false => .nop
      | false, false, false, true => .clr
      | false, false, true, false => .push (chrField w)
      | false, false, true, true => .fin
      | false, true, false, false => .start (argField w)
      | false, true, false, true => .tick
      | false, true, true, false => .reconf (argField w)
      | false, true, true, true => .stop
      | true, false, false, false => .reserved8
      | true, false, false, true => .reserved9
      | true, false, true, false => .reservedA
      | true, false, true, true => .reservedB
      | true, true, false, false => .reservedC
      | true, true, false, true => .reservedD
      | true, true, true, false => .reservedE
      | true, true, true, true => .reservedF := by
  subst h
  rfl

/-! ### The fields of an encoded command -/

@[simp] theorem opField_encode (i : Instr) : opField (encode i) = i.opcode := opField_append _ _

@[simp] theorem chrField_encode_push (c : CharCode) : chrField (encode (.push c)) = c := chrField_append _ c

@[simp] theorem argField_encode_start (v : Interval) : argField (encode (.start v)) = v := argField_append _ v

@[simp] theorem argField_encode_reconf (v : Interval) : argField (encode (.reconf v)) = v := argField_append _ v

/-! ### The fields as plain numbers -/

/-- An operand field holds the word's low bits as a plain number (R46). -/
theorem argField_toNat (w : Command) : (argField w).toNat = w.toNat % 2 ^ 16 := by
  simp [argField, BitVec.extractLsb'_toNat]

theorem chrField_toNat (w : Command) : (chrField w).toNat = w.toNat % 2 ^ 8 := by
  simp [chrField, BitVec.extractLsb'_toNat]

theorem opField_toNat (w : Command) : (opField w).toNat = w.toNat / 2 ^ 16 := by
  simp only [opField, BitVec.extractLsb'_toNat, Nat.shiftRight_eq_div_pow]
  have := w.isLt
  omega

end Sys2Proof
end

