-- ==== Sys2Proof/Laws/State.lean ====
section
/-! SUPPORT. One lemma per field per update of the state, so that no later proof unfolds a record update. -/

namespace Sys2Proof.Machine

/-! ### writeSlot -/

@[simp] theorem writeSlot_fb (i : SlotIndex) (f : Frame) (s : State) :
    (writeSlot i f s).fb =
      Memory.write s.fb i.toNat f := rfl
@[simp] theorem writeSlot_cnt (i : SlotIndex) (f : Frame) (s : State) : (writeSlot i f s).cnt = s.cnt := rfl
@[simp] theorem writeSlot_hold (i : SlotIndex) (f : Frame) (s : State) : (writeSlot i f s).hold = s.hold := rfl
@[simp] theorem writeSlot_len (i : SlotIndex) (f : Frame) (s : State) : (writeSlot i f s).len = s.len := rfl
@[simp] theorem writeSlot_enc (i : SlotIndex) (f : Frame) (s : State) : (writeSlot i f s).enc = s.enc := rfl
@[simp] theorem writeSlot_valid (i : SlotIndex) (f : Frame) (s : State) : (writeSlot i f s).valid = s.valid := rfl
@[simp] theorem writeSlot_ovf (i : SlotIndex) (f : Frame) (s : State) : (writeSlot i f s).ovf = s.ovf := rfl
@[simp] theorem writeSlot_idx (i : SlotIndex) (f : Frame) (s : State) : (writeSlot i f s).idx = s.idx := rfl
@[simp] theorem writeSlot_phase (i : SlotIndex) (f : Frame) (s : State) : (writeSlot i f s).phase = s.phase := rfl
@[simp] theorem writeSlot_tickInterval (i : SlotIndex) (f : Frame) (s : State) :
    (writeSlot i f s).tickInterval =
      s.tickInterval := rfl
@[simp] theorem writeSlot_pend (i : SlotIndex) (f : Frame) (s : State) : (writeSlot i f s).pend = s.pend := rfl
@[simp] theorem writeSlot_run (i : SlotIndex) (f : Frame) (s : State) : (writeSlot i f s).run = s.run := rfl
@[simp] theorem writeSlot_frameO (i : SlotIndex) (f : Frame) (s : State) : (writeSlot i f s).frameO = s.frameO := rfl
@[simp] theorem writeSlot_frameStbO (i : SlotIndex) (f : Frame) (s : State) :
    (writeSlot i f s).frameStbO =
      s.frameStbO := rfl
@[simp] theorem writeSlot_tmrLoadO (i : SlotIndex) (f : Frame) (s : State) :
    (writeSlot i f s).tmrLoadO =
      s.tmrLoadO := rfl
@[simp] theorem writeSlot_timer (i : SlotIndex) (f : Frame) (s : State) : (writeSlot i f s).timer = s.timer := rfl
@[simp] theorem writeSlot_inputs (i : SlotIndex) (f : Frame) (s : State) : (writeSlot i f s).inputs = s.inputs := rfl
@[simp] theorem writeSlot_trace (i : SlotIndex) (f : Frame) (s : State) : (writeSlot i f s).trace = s.trace := rfl
@[simp] theorem writeSlot_loads (i : SlotIndex) (f : Frame) (s : State) : (writeSlot i f s).loads = s.loads := rfl
@[simp] theorem writeSlot_marks (i : SlotIndex) (f : Frame) (s : State) : (writeSlot i f s).marks = s.marks := rfl

/-! ### emit -/

@[simp] theorem emit_fb (f : Frame) (b : Bool) (s : State) : (emit f b s).fb = s.fb := rfl
@[simp] theorem emit_cnt (f : Frame) (b : Bool) (s : State) : (emit f b s).cnt = s.cnt := rfl
@[simp] theorem emit_hold (f : Frame) (b : Bool) (s : State) : (emit f b s).hold = s.hold := rfl
@[simp] theorem emit_len (f : Frame) (b : Bool) (s : State) : (emit f b s).len = s.len := rfl
@[simp] theorem emit_enc (f : Frame) (b : Bool) (s : State) : (emit f b s).enc = s.enc := rfl
@[simp] theorem emit_valid (f : Frame) (b : Bool) (s : State) : (emit f b s).valid = s.valid := rfl
@[simp] theorem emit_ovf (f : Frame) (b : Bool) (s : State) : (emit f b s).ovf = s.ovf := rfl
@[simp] theorem emit_idx (f : Frame) (b : Bool) (s : State) : (emit f b s).idx = s.idx := rfl
@[simp] theorem emit_phase (f : Frame) (b : Bool) (s : State) : (emit f b s).phase = s.phase := rfl
@[simp] theorem emit_tickInterval (f : Frame) (b : Bool) (s : State) :
    (emit f b s).tickInterval =
      s.tickInterval := rfl
@[simp] theorem emit_pend (f : Frame) (b : Bool) (s : State) : (emit f b s).pend = s.pend := rfl
@[simp] theorem emit_run (f : Frame) (b : Bool) (s : State) : (emit f b s).run = s.run := rfl
@[simp] theorem emit_frameO (f : Frame) (b : Bool) (s : State) : (emit f b s).frameO = f := rfl
@[simp] theorem emit_frameStbO (f : Frame) (b : Bool) (s : State) : (emit f b s).frameStbO = true := rfl
@[simp] theorem emit_tmrLoadO (f : Frame) (b : Bool) (s : State) : (emit f b s).tmrLoadO = s.tmrLoadO := rfl
@[simp] theorem emit_timer (f : Frame) (b : Bool) (s : State) : (emit f b s).timer = s.timer := rfl
@[simp] theorem emit_inputs (f : Frame) (b : Bool) (s : State) : (emit f b s).inputs = s.inputs := rfl
@[simp] theorem emit_trace (f : Frame) (b : Bool) (s : State) :
    (emit f b s).trace =
      s.trace ++ [{ frame := f, steady := b }] := rfl
@[simp] theorem emit_loads (f : Frame) (b : Bool) (s : State) : (emit f b s).loads = s.loads := rfl
@[simp] theorem emit_marks (f : Frame) (b : Bool) (s : State) : (emit f b s).marks = s.marks := rfl

/-! ### timerLoad -/

@[simp] theorem timerLoad_fb (v : Interval) (s : State) : (timerLoad v s).fb = s.fb := rfl
@[simp] theorem timerLoad_cnt (v : Interval) (s : State) : (timerLoad v s).cnt = s.cnt := rfl
@[simp] theorem timerLoad_hold (v : Interval) (s : State) : (timerLoad v s).hold = s.hold := rfl
@[simp] theorem timerLoad_len (v : Interval) (s : State) : (timerLoad v s).len = s.len := rfl
@[simp] theorem timerLoad_enc (v : Interval) (s : State) : (timerLoad v s).enc = s.enc := rfl
@[simp] theorem timerLoad_valid (v : Interval) (s : State) : (timerLoad v s).valid = s.valid := rfl
@[simp] theorem timerLoad_ovf (v : Interval) (s : State) : (timerLoad v s).ovf = s.ovf := rfl
@[simp] theorem timerLoad_idx (v : Interval) (s : State) : (timerLoad v s).idx = s.idx := rfl
@[simp] theorem timerLoad_phase (v : Interval) (s : State) : (timerLoad v s).phase = s.phase := rfl
@[simp] theorem timerLoad_tickInterval (v : Interval) (s : State) :
    (timerLoad v s).tickInterval =
      s.tickInterval := rfl
@[simp] theorem timerLoad_pend (v : Interval) (s : State) : (timerLoad v s).pend = s.pend := rfl
@[simp] theorem timerLoad_run (v : Interval) (s : State) : (timerLoad v s).run = s.run := rfl
@[simp] theorem timerLoad_frameO (v : Interval) (s : State) : (timerLoad v s).frameO = s.frameO := rfl
@[simp] theorem timerLoad_frameStbO (v : Interval) (s : State) : (timerLoad v s).frameStbO = s.frameStbO := rfl
@[simp] theorem timerLoad_tmrLoadO (v : Interval) (s : State) : (timerLoad v s).tmrLoadO = true := rfl
@[simp] theorem timerLoad_timer (v : Interval) (s : State) : (timerLoad v s).timer = s.timer := rfl
@[simp] theorem timerLoad_inputs (v : Interval) (s : State) : (timerLoad v s).inputs = s.inputs := rfl
@[simp] theorem timerLoad_trace (v : Interval) (s : State) : (timerLoad v s).trace = s.trace := rfl
@[simp] theorem timerLoad_loads (v : Interval) (s : State) : (timerLoad v s).loads = s.loads ++ [v] := rfl
@[simp] theorem timerLoad_marks (v : Interval) (s : State) : (timerLoad v s).marks = s.marks := rfl

/-! ### ignore -/

@[simp] theorem ignore_fb (m : Mark) (s : State) : (ignore m s).fb = s.fb := rfl
@[simp] theorem ignore_cnt (m : Mark) (s : State) : (ignore m s).cnt = s.cnt := rfl
@[simp] theorem ignore_hold (m : Mark) (s : State) : (ignore m s).hold = s.hold := rfl
@[simp] theorem ignore_len (m : Mark) (s : State) : (ignore m s).len = s.len := rfl
@[simp] theorem ignore_enc (m : Mark) (s : State) : (ignore m s).enc = s.enc := rfl
@[simp] theorem ignore_valid (m : Mark) (s : State) : (ignore m s).valid = s.valid := rfl
@[simp] theorem ignore_ovf (m : Mark) (s : State) : (ignore m s).ovf = s.ovf := rfl
@[simp] theorem ignore_idx (m : Mark) (s : State) : (ignore m s).idx = s.idx := rfl
@[simp] theorem ignore_phase (m : Mark) (s : State) : (ignore m s).phase = s.phase := rfl
@[simp] theorem ignore_tickInterval (m : Mark) (s : State) : (ignore m s).tickInterval = s.tickInterval := rfl
@[simp] theorem ignore_pend (m : Mark) (s : State) : (ignore m s).pend = s.pend := rfl
@[simp] theorem ignore_run (m : Mark) (s : State) : (ignore m s).run = s.run := rfl
@[simp] theorem ignore_frameO (m : Mark) (s : State) : (ignore m s).frameO = s.frameO := rfl
@[simp] theorem ignore_frameStbO (m : Mark) (s : State) : (ignore m s).frameStbO = s.frameStbO := rfl
@[simp] theorem ignore_tmrLoadO (m : Mark) (s : State) : (ignore m s).tmrLoadO = s.tmrLoadO := rfl
@[simp] theorem ignore_timer (m : Mark) (s : State) : (ignore m s).timer = s.timer := rfl
@[simp] theorem ignore_inputs (m : Mark) (s : State) : (ignore m s).inputs = s.inputs := rfl
@[simp] theorem ignore_trace (m : Mark) (s : State) : (ignore m s).trace = s.trace := rfl
@[simp] theorem ignore_loads (m : Mark) (s : State) : (ignore m s).loads = s.loads := rfl
@[simp] theorem ignore_marks (m : Mark) (s : State) : (ignore m s).marks = s.marks ++ [m] := rfl

/-! ### rewind -/

@[simp] theorem rewind_fb (s : State) : (rewind s).fb = s.fb := rfl
@[simp] theorem rewind_cnt (s : State) : (rewind s).cnt = s.cnt := rfl
@[simp] theorem rewind_hold (s : State) : (rewind s).hold = s.hold := rfl
@[simp] theorem rewind_len (s : State) : (rewind s).len = s.len := rfl
@[simp] theorem rewind_enc (s : State) : (rewind s).enc = s.enc := rfl
@[simp] theorem rewind_valid (s : State) : (rewind s).valid = s.valid := rfl
@[simp] theorem rewind_ovf (s : State) : (rewind s).ovf = s.ovf := rfl
@[simp] theorem rewind_idx (s : State) : (rewind s).idx = 0#8 := rfl
@[simp] theorem rewind_phase (s : State) : (rewind s).phase = true := rfl
@[simp] theorem rewind_tickInterval (s : State) : (rewind s).tickInterval = s.tickInterval := rfl
@[simp] theorem rewind_pend (s : State) : (rewind s).pend = s.pend := rfl
@[simp] theorem rewind_run (s : State) : (rewind s).run = s.run := rfl
@[simp] theorem rewind_frameO (s : State) : (rewind s).frameO = s.frameO := rfl
@[simp] theorem rewind_frameStbO (s : State) : (rewind s).frameStbO = s.frameStbO := rfl
@[simp] theorem rewind_tmrLoadO (s : State) : (rewind s).tmrLoadO = s.tmrLoadO := rfl
@[simp] theorem rewind_timer (s : State) : (rewind s).timer = s.timer := rfl
@[simp] theorem rewind_inputs (s : State) : (rewind s).inputs = s.inputs := rfl
@[simp] theorem rewind_trace (s : State) : (rewind s).trace = s.trace := rfl
@[simp] theorem rewind_loads (s : State) : (rewind s).loads = s.loads := rfl
@[simp] theorem rewind_marks (s : State) : (rewind s).marks = s.marks := rfl

/-! ### beginEdge -/

@[simp] theorem beginEdge_fb (s : State) : (beginEdge s).fb = s.fb := rfl
@[simp] theorem beginEdge_cnt (s : State) : (beginEdge s).cnt = s.cnt := rfl
@[simp] theorem beginEdge_hold (s : State) : (beginEdge s).hold = s.hold := rfl
@[simp] theorem beginEdge_len (s : State) : (beginEdge s).len = s.len := rfl
@[simp] theorem beginEdge_enc (s : State) : (beginEdge s).enc = s.enc := rfl
@[simp] theorem beginEdge_valid (s : State) : (beginEdge s).valid = s.valid := rfl
@[simp] theorem beginEdge_ovf (s : State) : (beginEdge s).ovf = s.ovf := rfl
@[simp] theorem beginEdge_idx (s : State) : (beginEdge s).idx = s.idx := rfl
@[simp] theorem beginEdge_phase (s : State) : (beginEdge s).phase = s.phase := rfl
@[simp] theorem beginEdge_tickInterval (s : State) : (beginEdge s).tickInterval = s.tickInterval := rfl
@[simp] theorem beginEdge_pend (s : State) : (beginEdge s).pend = s.pend := rfl
@[simp] theorem beginEdge_run (s : State) : (beginEdge s).run = s.run := rfl
@[simp] theorem beginEdge_frameO (s : State) : (beginEdge s).frameO = s.frameO := rfl
@[simp] theorem beginEdge_frameStbO (s : State) : (beginEdge s).frameStbO = false := rfl
@[simp] theorem beginEdge_tmrLoadO (s : State) : (beginEdge s).tmrLoadO = false := rfl
@[simp] theorem beginEdge_timer (s : State) : (beginEdge s).timer = s.timer := rfl
@[simp] theorem beginEdge_inputs (s : State) : (beginEdge s).inputs = s.inputs := rfl
@[simp] theorem beginEdge_trace (s : State) : (beginEdge s).trace = s.trace := rfl
@[simp] theorem beginEdge_loads (s : State) : (beginEdge s).loads = s.loads := rfl
@[simp] theorem beginEdge_marks (s : State) : (beginEdge s).marks = s.marks := rfl

/-! ### timerGranted -/

@[simp] theorem timerGranted_fb (s : State) : (timerGranted s).fb = s.fb := rfl
@[simp] theorem timerGranted_cnt (s : State) : (timerGranted s).cnt = s.cnt := rfl
@[simp] theorem timerGranted_hold (s : State) : (timerGranted s).hold = s.hold := rfl
@[simp] theorem timerGranted_len (s : State) : (timerGranted s).len = s.len := rfl
@[simp] theorem timerGranted_enc (s : State) : (timerGranted s).enc = s.enc := rfl
@[simp] theorem timerGranted_valid (s : State) : (timerGranted s).valid = s.valid := rfl
@[simp] theorem timerGranted_ovf (s : State) : (timerGranted s).ovf = s.ovf := rfl
@[simp] theorem timerGranted_idx (s : State) : (timerGranted s).idx = s.idx := rfl
@[simp] theorem timerGranted_phase (s : State) : (timerGranted s).phase = s.phase := rfl
@[simp] theorem timerGranted_tickInterval (s : State) : (timerGranted s).tickInterval = s.tickInterval := rfl
@[simp] theorem timerGranted_pend (s : State) : (timerGranted s).pend = s.pend := rfl
@[simp] theorem timerGranted_run (s : State) : (timerGranted s).run = s.run := rfl
@[simp] theorem timerGranted_frameO (s : State) : (timerGranted s).frameO = s.frameO := rfl
@[simp] theorem timerGranted_frameStbO (s : State) : (timerGranted s).frameStbO = s.frameStbO := rfl
@[simp] theorem timerGranted_tmrLoadO (s : State) : (timerGranted s).tmrLoadO = s.tmrLoadO := rfl
@[simp] theorem timerGranted_timer (s : State) : (timerGranted s).timer = { s.timer with due := false } := rfl
@[simp] theorem timerGranted_inputs (s : State) : (timerGranted s).inputs = s.inputs := rfl
@[simp] theorem timerGranted_trace (s : State) : (timerGranted s).trace = s.trace := rfl
@[simp] theorem timerGranted_loads (s : State) : (timerGranted s).loads = s.loads := rfl
@[simp] theorem timerGranted_marks (s : State) : (timerGranted s).marks = s.marks := rfl

/-! ### timerReload -/

@[simp] theorem timerReload_fb (v : Interval) (s : State) : (timerReload v s).fb = s.fb := rfl
@[simp] theorem timerReload_cnt (v : Interval) (s : State) : (timerReload v s).cnt = s.cnt := rfl
@[simp] theorem timerReload_hold (v : Interval) (s : State) : (timerReload v s).hold = s.hold := rfl
@[simp] theorem timerReload_len (v : Interval) (s : State) : (timerReload v s).len = s.len := rfl
@[simp] theorem timerReload_enc (v : Interval) (s : State) : (timerReload v s).enc = s.enc := rfl
@[simp] theorem timerReload_valid (v : Interval) (s : State) : (timerReload v s).valid = s.valid := rfl
@[simp] theorem timerReload_ovf (v : Interval) (s : State) : (timerReload v s).ovf = s.ovf := rfl
@[simp] theorem timerReload_idx (v : Interval) (s : State) : (timerReload v s).idx = s.idx := rfl
@[simp] theorem timerReload_phase (v : Interval) (s : State) : (timerReload v s).phase = s.phase := rfl
@[simp] theorem timerReload_tickInterval (v : Interval) (s : State) :
    (timerReload v s).tickInterval =
      s.tickInterval := rfl
@[simp] theorem timerReload_pend (v : Interval) (s : State) : (timerReload v s).pend = s.pend := rfl
@[simp] theorem timerReload_run (v : Interval) (s : State) : (timerReload v s).run = s.run := rfl
@[simp] theorem timerReload_frameO (v : Interval) (s : State) : (timerReload v s).frameO = s.frameO := rfl
@[simp] theorem timerReload_frameStbO (v : Interval) (s : State) : (timerReload v s).frameStbO = s.frameStbO := rfl
@[simp] theorem timerReload_tmrLoadO (v : Interval) (s : State) : (timerReload v s).tmrLoadO = s.tmrLoadO := rfl
@[simp] theorem timerReload_timer (v : Interval) (s : State) :
    (timerReload v s).timer =
      { period := v, tcnt := v, due := false, loadSeen := none } := rfl
@[simp] theorem timerReload_inputs (v : Interval) (s : State) : (timerReload v s).inputs = s.inputs := rfl
@[simp] theorem timerReload_trace (v : Interval) (s : State) : (timerReload v s).trace = s.trace := rfl
@[simp] theorem timerReload_loads (v : Interval) (s : State) : (timerReload v s).loads = s.loads := rfl
@[simp] theorem timerReload_marks (v : Interval) (s : State) : (timerReload v s).marks = s.marks := rfl

/-! ### resetEdge -/

@[simp] theorem resetEdge_fb (s : State) : (resetEdge s).fb = s.fb := rfl
@[simp] theorem resetEdge_cnt (s : State) : (resetEdge s).cnt = 0#9 := rfl
@[simp] theorem resetEdge_hold (s : State) : (resetEdge s).hold = s.hold := rfl
@[simp] theorem resetEdge_len (s : State) : (resetEdge s).len = 0#9 := rfl
@[simp] theorem resetEdge_enc (s : State) : (resetEdge s).enc = false := rfl
@[simp] theorem resetEdge_valid (s : State) : (resetEdge s).valid = false := rfl
@[simp] theorem resetEdge_ovf (s : State) : (resetEdge s).ovf = false := rfl
@[simp] theorem resetEdge_idx (s : State) : (resetEdge s).idx = 0#8 := rfl
@[simp] theorem resetEdge_phase (s : State) : (resetEdge s).phase = true := rfl
@[simp] theorem resetEdge_tickInterval (s : State) : (resetEdge s).tickInterval = Config.defaultDelay := rfl
@[simp] theorem resetEdge_pend (s : State) : (resetEdge s).pend = false := rfl
@[simp] theorem resetEdge_run (s : State) : (resetEdge s).run = false := rfl
@[simp] theorem resetEdge_frameO (s : State) : (resetEdge s).frameO = 0#5 := rfl
@[simp] theorem resetEdge_frameStbO (s : State) : (resetEdge s).frameStbO = false := rfl
@[simp] theorem resetEdge_tmrLoadO (s : State) : (resetEdge s).tmrLoadO = false := rfl
@[simp] theorem resetEdge_timer (s : State) :
    (resetEdge s).timer =
      { s.timer with due := false, loadSeen := none } := rfl
@[simp] theorem resetEdge_inputs (s : State) : (resetEdge s).inputs = s.inputs := rfl
@[simp] theorem resetEdge_trace (s : State) : (resetEdge s).trace = s.trace := rfl
@[simp] theorem resetEdge_loads (s : State) : (resetEdge s).loads = s.loads := rfl
@[simp] theorem resetEdge_marks (s : State) : (resetEdge s).marks = s.marks := rfl

/-! ### presentWord -/

@[simp] theorem presentWord_fb (w : Command) (s : State) : (presentWord w s).fb = s.fb := rfl
@[simp] theorem presentWord_cnt (w : Command) (s : State) : (presentWord w s).cnt = s.cnt := rfl
@[simp] theorem presentWord_hold (w : Command) (s : State) : (presentWord w s).hold = s.hold := rfl
@[simp] theorem presentWord_len (w : Command) (s : State) : (presentWord w s).len = s.len := rfl
@[simp] theorem presentWord_enc (w : Command) (s : State) : (presentWord w s).enc = s.enc := rfl
@[simp] theorem presentWord_valid (w : Command) (s : State) : (presentWord w s).valid = s.valid := rfl
@[simp] theorem presentWord_ovf (w : Command) (s : State) : (presentWord w s).ovf = s.ovf := rfl
@[simp] theorem presentWord_idx (w : Command) (s : State) : (presentWord w s).idx = s.idx := rfl
@[simp] theorem presentWord_phase (w : Command) (s : State) : (presentWord w s).phase = s.phase := rfl
@[simp] theorem presentWord_tickInterval (w : Command) (s : State) :
    (presentWord w s).tickInterval =
      s.tickInterval := rfl
@[simp] theorem presentWord_pend (w : Command) (s : State) : (presentWord w s).pend = s.pend := rfl
@[simp] theorem presentWord_run (w : Command) (s : State) : (presentWord w s).run = s.run := rfl
@[simp] theorem presentWord_frameO (w : Command) (s : State) : (presentWord w s).frameO = s.frameO := rfl
@[simp] theorem presentWord_frameStbO (w : Command) (s : State) : (presentWord w s).frameStbO = s.frameStbO := rfl
@[simp] theorem presentWord_tmrLoadO (w : Command) (s : State) : (presentWord w s).tmrLoadO = s.tmrLoadO := rfl
@[simp] theorem presentWord_timer (w : Command) (s : State) : (presentWord w s).timer = s.timer := rfl
@[simp] theorem presentWord_inputs (w : Command) (s : State) :
    (presentWord w s).inputs =
      .clock false true w :: s.inputs := rfl
@[simp] theorem presentWord_trace (w : Command) (s : State) : (presentWord w s).trace = s.trace := rfl
@[simp] theorem presentWord_loads (w : Command) (s : State) : (presentWord w s).loads = s.loads := rfl
@[simp] theorem presentWord_marks (w : Command) (s : State) : (presentWord w s).marks = s.marks := rfl

/-! ### writePreamble -/

@[simp] theorem writePreamble_cnt (s : State) : (writePreamble s).cnt = s.cnt := rfl
@[simp] theorem writePreamble_hold (s : State) : (writePreamble s).hold = s.hold := rfl
@[simp] theorem writePreamble_len (s : State) : (writePreamble s).len = s.len := rfl
@[simp] theorem writePreamble_enc (s : State) : (writePreamble s).enc = s.enc := rfl
@[simp] theorem writePreamble_valid (s : State) : (writePreamble s).valid = s.valid := rfl
@[simp] theorem writePreamble_ovf (s : State) : (writePreamble s).ovf = s.ovf := rfl
@[simp] theorem writePreamble_idx (s : State) : (writePreamble s).idx = s.idx := rfl
@[simp] theorem writePreamble_phase (s : State) : (writePreamble s).phase = s.phase := rfl
@[simp] theorem writePreamble_tickInterval (s : State) : (writePreamble s).tickInterval = s.tickInterval := rfl
@[simp] theorem writePreamble_pend (s : State) : (writePreamble s).pend = s.pend := rfl
@[simp] theorem writePreamble_run (s : State) : (writePreamble s).run = s.run := rfl
@[simp] theorem writePreamble_frameO (s : State) : (writePreamble s).frameO = s.frameO := rfl
@[simp] theorem writePreamble_frameStbO (s : State) : (writePreamble s).frameStbO = s.frameStbO := rfl
@[simp] theorem writePreamble_tmrLoadO (s : State) : (writePreamble s).tmrLoadO = s.tmrLoadO := rfl
@[simp] theorem writePreamble_timer (s : State) : (writePreamble s).timer = s.timer := rfl
@[simp] theorem writePreamble_inputs (s : State) : (writePreamble s).inputs = s.inputs := rfl
@[simp] theorem writePreamble_trace (s : State) : (writePreamble s).trace = s.trace := rfl
@[simp] theorem writePreamble_loads (s : State) : (writePreamble s).loads = s.loads := rfl
@[simp] theorem writePreamble_marks (s : State) : (writePreamble s).marks = s.marks := rfl

/-! ### writePair -/

@[simp] theorem writePair_cnt (v : Nibble) (s : State) : (writePair v s).cnt = s.cnt := rfl
@[simp] theorem writePair_hold (v : Nibble) (s : State) : (writePair v s).hold = s.hold := rfl
@[simp] theorem writePair_len (v : Nibble) (s : State) : (writePair v s).len = s.len := rfl
@[simp] theorem writePair_enc (v : Nibble) (s : State) : (writePair v s).enc = s.enc := rfl
@[simp] theorem writePair_valid (v : Nibble) (s : State) : (writePair v s).valid = s.valid := rfl
@[simp] theorem writePair_ovf (v : Nibble) (s : State) : (writePair v s).ovf = s.ovf := rfl
@[simp] theorem writePair_idx (v : Nibble) (s : State) : (writePair v s).idx = s.idx := rfl
@[simp] theorem writePair_phase (v : Nibble) (s : State) : (writePair v s).phase = s.phase := rfl
@[simp] theorem writePair_tickInterval (v : Nibble) (s : State) : (writePair v s).tickInterval = s.tickInterval := rfl
@[simp] theorem writePair_pend (v : Nibble) (s : State) : (writePair v s).pend = s.pend := rfl
@[simp] theorem writePair_run (v : Nibble) (s : State) : (writePair v s).run = s.run := rfl
@[simp] theorem writePair_frameO (v : Nibble) (s : State) : (writePair v s).frameO = s.frameO := rfl
@[simp] theorem writePair_frameStbO (v : Nibble) (s : State) : (writePair v s).frameStbO = s.frameStbO := rfl
@[simp] theorem writePair_tmrLoadO (v : Nibble) (s : State) : (writePair v s).tmrLoadO = s.tmrLoadO := rfl
@[simp] theorem writePair_timer (v : Nibble) (s : State) : (writePair v s).timer = s.timer := rfl
@[simp] theorem writePair_inputs (v : Nibble) (s : State) : (writePair v s).inputs = s.inputs := rfl
@[simp] theorem writePair_trace (v : Nibble) (s : State) : (writePair v s).trace = s.trace := rfl
@[simp] theorem writePair_loads (v : Nibble) (s : State) : (writePair v s).loads = s.loads := rfl
@[simp] theorem writePair_marks (v : Nibble) (s : State) : (writePair v s).marks = s.marks := rfl

/-! ### writeOddTail -/

@[simp] theorem writeOddTail_fb (s : State) :
    (writeOddTail s).fb =
      Memory.write s.fb (slotIndex (s.cnt - 1#9)).toNat oddTailFrame := rfl
@[simp] theorem writeOddTail_cnt (s : State) : (writeOddTail s).cnt = s.cnt := rfl
@[simp] theorem writeOddTail_hold (s : State) : (writeOddTail s).hold = s.hold := rfl
@[simp] theorem writeOddTail_len (s : State) : (writeOddTail s).len = s.len := rfl
@[simp] theorem writeOddTail_enc (s : State) : (writeOddTail s).enc = s.enc := rfl
@[simp] theorem writeOddTail_valid (s : State) : (writeOddTail s).valid = s.valid := rfl
@[simp] theorem writeOddTail_ovf (s : State) : (writeOddTail s).ovf = s.ovf := rfl
@[simp] theorem writeOddTail_idx (s : State) : (writeOddTail s).idx = s.idx := rfl
@[simp] theorem writeOddTail_phase (s : State) : (writeOddTail s).phase = s.phase := rfl
@[simp] theorem writeOddTail_tickInterval (s : State) : (writeOddTail s).tickInterval = s.tickInterval := rfl
@[simp] theorem writeOddTail_pend (s : State) : (writeOddTail s).pend = s.pend := rfl
@[simp] theorem writeOddTail_run (s : State) : (writeOddTail s).run = s.run := rfl
@[simp] theorem writeOddTail_frameO (s : State) : (writeOddTail s).frameO = s.frameO := rfl
@[simp] theorem writeOddTail_frameStbO (s : State) : (writeOddTail s).frameStbO = s.frameStbO := rfl
@[simp] theorem writeOddTail_tmrLoadO (s : State) : (writeOddTail s).tmrLoadO = s.tmrLoadO := rfl
@[simp] theorem writeOddTail_timer (s : State) : (writeOddTail s).timer = s.timer := rfl
@[simp] theorem writeOddTail_inputs (s : State) : (writeOddTail s).inputs = s.inputs := rfl
@[simp] theorem writeOddTail_trace (s : State) : (writeOddTail s).trace = s.trace := rfl
@[simp] theorem writeOddTail_loads (s : State) : (writeOddTail s).loads = s.loads := rfl
@[simp] theorem writeOddTail_marks (s : State) : (writeOddTail s).marks = s.marks := rfl

/-! ### advance -/

@[simp] theorem advance_fb (s : State) : (advance s).fb = s.fb := by unfold advance; split <;> rfl
@[simp] theorem advance_cnt (s : State) : (advance s).cnt = s.cnt := by unfold advance; split <;> rfl
@[simp] theorem advance_hold (s : State) : (advance s).hold = s.hold := by unfold advance; split <;> rfl
@[simp] theorem advance_len (s : State) : (advance s).len = s.len := by unfold advance; split <;> rfl
@[simp] theorem advance_enc (s : State) : (advance s).enc = s.enc := by unfold advance; split <;> rfl
@[simp] theorem advance_valid (s : State) : (advance s).valid = s.valid := by unfold advance; split <;> rfl
@[simp] theorem advance_ovf (s : State) : (advance s).ovf = s.ovf := by unfold advance; split <;> rfl
@[simp] theorem advance_idx (s : State) :
    (advance s).idx =
      if s.phase then s.idx else nextIdx s := by unfold advance; cases h : s.phase <;> simp
@[simp] theorem advance_phase (s : State) :
    (advance s).phase =
      !s.phase := by unfold advance; cases h : s.phase <;> simp
@[simp] theorem advance_tickInterval (s : State) :
    (advance s).tickInterval =
      s.tickInterval := by unfold advance; split <;> rfl
@[simp] theorem advance_pend (s : State) : (advance s).pend = s.pend := by unfold advance; split <;> rfl
@[simp] theorem advance_run (s : State) : (advance s).run = s.run := by unfold advance; split <;> rfl
@[simp] theorem advance_frameO (s : State) : (advance s).frameO = s.frameO := by unfold advance; split <;> rfl
@[simp] theorem advance_frameStbO (s : State) :
    (advance s).frameStbO =
      s.frameStbO := by unfold advance; split <;> rfl
@[simp] theorem advance_tmrLoadO (s : State) : (advance s).tmrLoadO = s.tmrLoadO := by unfold advance; split <;> rfl
@[simp] theorem advance_timer (s : State) : (advance s).timer = s.timer := by unfold advance; split <;> rfl
@[simp] theorem advance_inputs (s : State) : (advance s).inputs = s.inputs := by unfold advance; split <;> rfl
@[simp] theorem advance_trace (s : State) : (advance s).trace = s.trace := by unfold advance; split <;> rfl
@[simp] theorem advance_loads (s : State) : (advance s).loads = s.loads := by unfold advance; split <;> rfl
@[simp] theorem advance_marks (s : State) : (advance s).marks = s.marks := by unfold advance; split <;> rfl

/-! ### timerSees -/

@[simp] theorem timerSees_fb (s : State) : (timerSees s).fb = s.fb := rfl
@[simp] theorem timerSees_cnt (s : State) : (timerSees s).cnt = s.cnt := rfl
@[simp] theorem timerSees_hold (s : State) : (timerSees s).hold = s.hold := rfl
@[simp] theorem timerSees_len (s : State) : (timerSees s).len = s.len := rfl
@[simp] theorem timerSees_enc (s : State) : (timerSees s).enc = s.enc := rfl
@[simp] theorem timerSees_valid (s : State) : (timerSees s).valid = s.valid := rfl
@[simp] theorem timerSees_ovf (s : State) : (timerSees s).ovf = s.ovf := rfl
@[simp] theorem timerSees_idx (s : State) : (timerSees s).idx = s.idx := rfl
@[simp] theorem timerSees_phase (s : State) : (timerSees s).phase = s.phase := rfl
@[simp] theorem timerSees_tickInterval (s : State) : (timerSees s).tickInterval = s.tickInterval := rfl
@[simp] theorem timerSees_pend (s : State) : (timerSees s).pend = s.pend := rfl
@[simp] theorem timerSees_run (s : State) : (timerSees s).run = s.run := rfl
@[simp] theorem timerSees_frameO (s : State) : (timerSees s).frameO = s.frameO := rfl
@[simp] theorem timerSees_frameStbO (s : State) : (timerSees s).frameStbO = s.frameStbO := rfl
@[simp] theorem timerSees_tmrLoadO (s : State) : (timerSees s).tmrLoadO = s.tmrLoadO := rfl
@[simp] theorem timerSees_timer (s : State) :
    (timerSees s).timer =
      { s.timer with
        loadSeen := if s.tmrLoadO then some s.tickInterval else s.timer.loadSeen
        due := s.timer.due && s.run } := rfl
@[simp] theorem timerSees_inputs (s : State) : (timerSees s).inputs = s.inputs := rfl
@[simp] theorem timerSees_trace (s : State) : (timerSees s).trace = s.trace := rfl
@[simp] theorem timerSees_loads (s : State) : (timerSees s).loads = s.loads := rfl
@[simp] theorem timerSees_marks (s : State) : (timerSees s).marks = s.marks := rfl

/-! ### idleEdge -/

@[simp] theorem idleEdge_fb (s : State) : (idleEdge s).fb = s.fb := rfl
@[simp] theorem idleEdge_cnt (s : State) : (idleEdge s).cnt = s.cnt := rfl
@[simp] theorem idleEdge_hold (s : State) : (idleEdge s).hold = s.hold := rfl
@[simp] theorem idleEdge_len (s : State) : (idleEdge s).len = s.len := rfl
@[simp] theorem idleEdge_enc (s : State) : (idleEdge s).enc = s.enc := rfl
@[simp] theorem idleEdge_valid (s : State) : (idleEdge s).valid = s.valid := rfl
@[simp] theorem idleEdge_ovf (s : State) : (idleEdge s).ovf = s.ovf := rfl
@[simp] theorem idleEdge_idx (s : State) : (idleEdge s).idx = s.idx := rfl
@[simp] theorem idleEdge_phase (s : State) : (idleEdge s).phase = s.phase := rfl
@[simp] theorem idleEdge_tickInterval (s : State) : (idleEdge s).tickInterval = s.tickInterval := rfl
@[simp] theorem idleEdge_pend (s : State) : (idleEdge s).pend = s.pend := rfl
@[simp] theorem idleEdge_run (s : State) : (idleEdge s).run = s.run := rfl
@[simp] theorem idleEdge_frameO (s : State) : (idleEdge s).frameO = s.frameO := rfl
@[simp] theorem idleEdge_frameStbO (s : State) : (idleEdge s).frameStbO = false := rfl
@[simp] theorem idleEdge_tmrLoadO (s : State) : (idleEdge s).tmrLoadO = false := rfl
@[simp] theorem idleEdge_timer (s : State) :
    (idleEdge s).timer = { s.timer with due := s.timer.due && s.run } := rfl
@[simp] theorem idleEdge_inputs (s : State) : (idleEdge s).inputs = s.inputs := rfl
@[simp] theorem idleEdge_trace (s : State) : (idleEdge s).trace = s.trace := rfl
@[simp] theorem idleEdge_loads (s : State) : (idleEdge s).loads = s.loads := rfl
@[simp] theorem idleEdge_marks (s : State) : (idleEdge s).marks = s.marks := rfl

/-! ### timerCount -/

@[simp] theorem timerCount_fb (s : State) : (timerCount s).fb = s.fb := by unfold timerCount; split <;> rfl
@[simp] theorem timerCount_cnt (s : State) : (timerCount s).cnt = s.cnt := by unfold timerCount; split <;> rfl
@[simp] theorem timerCount_hold (s : State) : (timerCount s).hold = s.hold := by unfold timerCount; split <;> rfl
@[simp] theorem timerCount_len (s : State) : (timerCount s).len = s.len := by unfold timerCount; split <;> rfl
@[simp] theorem timerCount_enc (s : State) : (timerCount s).enc = s.enc := by unfold timerCount; split <;> rfl
@[simp] theorem timerCount_valid (s : State) : (timerCount s).valid = s.valid := by unfold timerCount; split <;> rfl
@[simp] theorem timerCount_ovf (s : State) : (timerCount s).ovf = s.ovf := by unfold timerCount; split <;> rfl
@[simp] theorem timerCount_idx (s : State) : (timerCount s).idx = s.idx := by unfold timerCount; split <;> rfl
@[simp] theorem timerCount_phase (s : State) : (timerCount s).phase = s.phase := by unfold timerCount; split <;> rfl
@[simp] theorem timerCount_tickInterval (s : State) :
    (timerCount s).tickInterval =
      s.tickInterval := by unfold timerCount; split <;> rfl
@[simp] theorem timerCount_pend (s : State) : (timerCount s).pend = s.pend := by unfold timerCount; split <;> rfl
@[simp] theorem timerCount_run (s : State) : (timerCount s).run = s.run := by unfold timerCount; split <;> rfl
@[simp] theorem timerCount_frameO (s : State) :
    (timerCount s).frameO =
      s.frameO := by unfold timerCount; split <;> rfl
@[simp] theorem timerCount_frameStbO (s : State) :
    (timerCount s).frameStbO =
      s.frameStbO := by unfold timerCount; split <;> rfl
@[simp] theorem timerCount_tmrLoadO (s : State) :
    (timerCount s).tmrLoadO =
      s.tmrLoadO := by unfold timerCount; split <;> rfl
@[simp] theorem timerCount_timer (s : State) :
    (timerCount s).timer =
      if s.timer.tcnt = 1#16 then { s.timer with tcnt := s.timer.period, due := true } else { s.timer with tcnt := s.timer.tcnt - 1#16 } := by unfold timerCount; split <;> rfl
@[simp] theorem timerCount_inputs (s : State) :
    (timerCount s).inputs =
      s.inputs := by unfold timerCount; split <;> rfl
@[simp] theorem timerCount_trace (s : State) : (timerCount s).trace = s.trace := by unfold timerCount; split <;> rfl
@[simp] theorem timerCount_loads (s : State) : (timerCount s).loads = s.loads := by unfold timerCount; split <;> rfl
@[simp] theorem timerCount_marks (s : State) : (timerCount s).marks = s.marks := by unfold timerCount; split <;> rfl

end Sys2Proof.Machine
end

