-- ==== Sys2Proof/Laws/Memory.lean ====
section
/-! SUPPORT. The frame buffer: read after write, the canonical form, and the layout of a frame. -/

namespace Sys2Proof.Machine

@[simp] theorem Memory.read?_nil (i : Nat) : Memory.read? [] i = none := rfl

theorem Memory.read?_cons (j : Nat) (g : Frame) (m : Memory) (i : Nat) :
    Memory.read? ((j, g) :: m) i = if i = j then some g else Memory.read? m i := rfl

/-- Reading after one write (R37, R40): the slot written holds the frame, every other slot what it held. -/
@[simp] theorem Memory.read?_write (m : Memory) (i j : Nat) (f : Frame) :
    Memory.read? (Memory.write m i f) j = if j = i then some f else Memory.read? m j := by
  induction m with
  | nil => rfl
  | cons c m ih =>
    obtain ⟨k, g⟩ := c
    simp only [Memory.write]
    split
    · simp only [Memory.read?_cons]
    · split
      · subst_vars
        simp only [Memory.read?_cons]
        split <;> simp_all
      · simp only [Memory.read?_cons, ih]
        split <;> split <;> simp_all

theorem Memory.read?_write_same (m : Memory) (i : Nat) (f : Frame) :
    Memory.read? (Memory.write m i f) i = some f := by simp

theorem Memory.read?_write_other {m : Memory} {i j : Nat} (f : Frame) (h : j ≠ i) :
    Memory.read? (Memory.write m i f) j = Memory.read? m j := by simp [h]

/-- A write never loses a slot that had a value. -/
theorem Memory.isSome_write {m : Memory} {i j : Nat} {f : Frame} (h : (Memory.read? m j).isSome = true) :
    (Memory.read? (Memory.write m i f) j).isSome = true := by
  rw [Memory.read?_write]; split <;> simp [h]

theorem Memory.wfFrom_mono {lo lo' : Nat} {m : Memory} (h : lo ≤ lo') (hm : Memory.wfFrom lo' m = true) :
    Memory.wfFrom lo m = true := by
  cases m with
  | nil => rfl
  | cons c m =>
    simp only [Memory.wfFrom, Bool.and_eq_true, decide_eq_true_eq] at hm ⊢
    exact ⟨⟨by omega, hm.1.2⟩, hm.2⟩

theorem Memory.wfFrom_write {lo i : Nat} {m : Memory} {f : Frame} (hlo : lo ≤ i) (hi : i < Config.nMax)
    (hm : Memory.wfFrom lo m = true) : Memory.wfFrom lo (Memory.write m i f) = true := by
  induction m generalizing lo with
  | nil => simp [Memory.write, Memory.wfFrom, hlo, hi]
  | cons c m ih =>
    obtain ⟨k, g⟩ := c
    simp only [Memory.wfFrom, Bool.and_eq_true, decide_eq_true_eq] at hm
    obtain ⟨⟨hk, hkn⟩, hm'⟩ := hm
    simp only [Memory.write]
    split
    · simp only [Memory.wfFrom, Bool.and_eq_true, decide_eq_true_eq]
      exact ⟨⟨hlo, hi⟩, ⟨by omega, hkn⟩, hm'⟩
    · split
      · subst_vars
        simp only [Memory.wfFrom, Bool.and_eq_true, decide_eq_true_eq]
        exact ⟨⟨hlo, hi⟩, hm'⟩
      · simp only [Memory.wfFrom, Bool.and_eq_true, decide_eq_true_eq]
        exact ⟨⟨hk, hkn⟩, ih (by omega) hm'⟩

/-- Every write keeps the canonical form. -/
theorem Memory.wf_write {i : Nat} {m : Memory} {f : Frame} (hi : i < Config.nMax) (hm : Memory.wf m = true) :
    Memory.wf (Memory.write m i f) = true := Memory.wfFrom_write (Nat.zero_le i) hi hm

/-- The memory after reset is in its canonical form: nothing is listed. -/
theorem Memory.wf_empty : Memory.wf [] = true := rfl

/-- A slot index is always inside the buffer (R31). -/
theorem slotIndex_lt (i : SlotIndex) : i.toNat < Config.nMax := i.isLt

theorem writeSlot_wf {i : SlotIndex} {f : Frame} {s : State} (h : Memory.wf s.fb = true) :
    Memory.wf (writeSlot i f s).fb = true := by
  simpa using Memory.wf_write (slotIndex_lt i) h

theorem writePreamble_wf {s : State} (h : Memory.wf s.fb = true) : Memory.wf (writePreamble s).fb = true :=
  writeSlot_wf (writeSlot_wf (writeSlot_wf (writeSlot_wf h)))

theorem writePair_wf {v : Nibble} {s : State} (h : Memory.wf s.fb = true) : Memory.wf (writePair v s).fb = true :=
  writeSlot_wf (writeSlot_wf h)

theorem writeOddTail_wf {s : State} (h : Memory.wf s.fb = true) : Memory.wf (writeOddTail s).fb = true :=
  writeSlot_wf h

/-! ### Slots -/

@[simp] theorem slotAt_write (m : Memory) (i j : Nat) (f : Frame) :
    slotAt (Memory.write m i f) j = if j = i then f else slotAt m j := by
  unfold slotAt
  rw [Memory.read?_write]
  split <;> simp

theorem slotAt_of_read? {m : Memory} {i : Nat} {f : Frame} (h : Memory.read? m i = some f) : slotAt m i = f := by
  simp [slotAt, h]

/-! ### Frames (R11) -/

@[simp] theorem clockBit_packFrame (c : Bool) (v : Nibble) : clockBit (packFrame c v) = c := by
  revert c v; decide

@[simp] theorem dataBits_packFrame (c : Bool) (v : Nibble) : dataBits (packFrame c v) = v := by
  revert c v; decide

@[simp] theorem packFrame_clockBit_dataBits (f : Frame) : packFrame (clockBit f) (dataBits f) = f := by
  revert f; decide

@[simp] theorem dataBits_lut (v : Nibble) : dataBits (lut v) = v := dataBits_packFrame false v

@[simp] theorem clockBit_lut (v : Nibble) : clockBit (lut v) = false := clockBit_packFrame false v

@[simp] theorem dataBits_withClock (c : Bool) (f : Frame) : dataBits (withClock c f) = dataBits f :=
  dataBits_packFrame c _

@[simp] theorem clockBit_withClock (c : Bool) (f : Frame) : clockBit (withClock c f) = c := clockBit_packFrame c _

@[simp] theorem withClock_withClock (c d : Bool) (f : Frame) : withClock c (withClock d f) = withClock c f := by
  simp [withClock]

theorem withClock_congr {c : Bool} {f g : Frame} (h : dataBits f = dataBits g) : withClock c f = withClock c g := by
  simp [withClock, h]

/-- `lut` loses nothing (R61). -/
theorem lut_injective {v w : Nibble} (h : lut v = lut w) : v = w := by
  simpa using congrArg dataBits h

end Sys2Proof.Machine
end

