-- ==== Sys2Proof/Laws/Ops.lean ====
section
/-! SUPPORT. For each shared operation, once, everything it does. -/

namespace Sys2Proof.Machine

/-! ### Flags -/

@[simp] theorem cntOdd_eq (s : State) : s.cntOdd = decide (s.cnt.toNat % 2 = 1) := by
  simp only [State.cntOdd, BitVec.getLsbD, Nat.testBit_zero]

@[simp] theorem full_eq (s : State) : s.full = decide (s.cnt.toNat = 256) := by
  simp only [State.full, Config.nMaxCount, beq_eq_decide, decide_eq_decide]
  constructor
  · intro h; rw [h]; rfl
  · intro h; exact BitVec.eq_of_toNat_eq h

/-! ### Slot indices -/

@[simp] theorem slotIndex_toNat (n : Count) : (slotIndex n).toNat = n.toNat % 256 := by
  simp [slotIndex, BitVec.toNat_setWidth]

theorem slotIndex_toNat_of_lt {n : Count} (h : n.toNat < 256) : (slotIndex n).toNat = n.toNat := by
  rw [slotIndex_toNat, Nat.mod_eq_of_lt h]

theorem slotIndex_pred_toNat {n : Count} (h1 : 0 < n.toNat) (h : n.toNat ≤ 256) :
    (slotIndex (n - 1#9)).toNat = n.toNat - 1 := by
  have h9 : (n - 1#9).toNat = n.toNat - 1 := by bv_omega
  rw [slotIndex_toNat_of_lt (by omega), h9]

theorem slotIndex_pred_ne (n : Count) : (slotIndex (n - 1#9)).toNat ≠ (slotIndex n).toNat := by
  rw [slotIndex_toNat, slotIndex_toNat]
  bv_omega

/-! ### The encoder's writes -/

theorem writePreamble_eq (s : State) : writePreamble s = { s with fb := (writePreamble s).fb } := rfl

/-- What CLR's four writes leave (R38): slots 0 to 3 are the preamble, every other slot is untouched. -/
theorem writePreamble_read? (s : State) (j : Nat) :
    Memory.read? (writePreamble s).fb j =
      if j = 0 then some 0x1E#5 else if j = 1 then some 0x00#5 else if j = 2 then some 0x1E#5
      else if j = 3 then some 0x1E#5 else Memory.read? s.fb j := by
  have h15 : lut 15#4 = 0x1E#5 := by decide
  have h0 : lut 0#4 = 0x00#5 := by decide
  simp only [writePreamble, writeSlot_fb, Memory.read?_write, h15, h0]
  split_ifs <;> simp_all

theorem writePair_eq (v : Nibble) (s : State) : writePair v s = { s with fb := (writePair v s).fb } := rfl

/-- What the two writes of a closed pair leave (R33, R67). -/
theorem writePair_read? (v : Nibble) (s : State) (j : Nat) :
    Memory.read? (writePair v s).fb j =
      if j = (slotIndex s.cnt).toNat then some (lut s.hold)
      else if j = (slotIndex (s.cnt - 1#9)).toNat then some (lut v) else Memory.read? s.fb j := by
  simp only [writePair, writeSlot_fb, Memory.read?_write]

theorem writeOddTail_eq (s : State) : writeOddTail s = { s with fb := (writeOddTail s).fb } := rfl

/-- What the odd-tail write leaves (R35, R68). -/
theorem writeOddTail_read? (s : State) (j : Nat) :
    Memory.read? (writeOddTail s).fb j =
      if j = (slotIndex (s.cnt - 1#9)).toNat then some 0#5 else Memory.read? s.fb j := by
  have h0 : oddTailFrame = 0#5 := by decide
  simp only [writeOddTail_fb, Memory.read?_write, h0]

/-! ### The slots after the encoder's writes, as a TICK would read them -/

theorem slotAt_writePreamble (s : State) (j : Nat) :
    slotAt (writePreamble s).fb j =
      if j = 0 then 0x1E#5 else if j = 1 then 0x00#5 else if j = 2 then 0x1E#5 else if j = 3 then 0x1E#5
      else slotAt s.fb j := by
  unfold slotAt
  rw [writePreamble_read?]
  split_ifs <;> rfl

theorem slotAt_writePair (v : Nibble) (s : State) (j : Nat) :
    slotAt (writePair v s).fb j =
      if j = (slotIndex s.cnt).toNat then lut s.hold
      else if j = (slotIndex (s.cnt - 1#9)).toNat then lut v else slotAt s.fb j := by
  unfold slotAt
  rw [writePair_read?]
  split_ifs <;> rfl

theorem slotAt_writeOddTail (s : State) (j : Nat) :
    slotAt (writeOddTail s).fb j = if j = (slotIndex (s.cnt - 1#9)).toNat then 0#5 else slotAt s.fb j := by
  unfold slotAt
  rw [writeOddTail_read?]
  split_ifs <;> rfl

/-! ### The pure functions (R62, R63) -/

theorem code_length (s : List CharCode) : (code s).length = s.length + 4 := by simp [code, Config.preamble]

/-- The nibbles of the preamble, then those of the challenge (R62). -/
theorem code_map_nibble (s : List CharCode) : (code s).map nibble = [0#4, 15#4, 15#4, 15#4] ++ s.map nibble := by
  have h : Config.preamble.map nibble = [0#4, 15#4, 15#4, 15#4] := by decide
  simp only [code, List.map_append, h]

@[simp] theorem swapPairs_nil : swapPairs [] = [] := rfl
@[simp] theorem swapPairs_singleton (a : Nibble) : swapPairs [a] = [0#5] := rfl
@[simp] theorem swapPairs_cons_cons (a b : Nibble) (rest : List Nibble) :
    swapPairs (a :: b :: rest) = lut b :: lut a :: swapPairs rest := rfl

/-- One frame per character (R64). -/
@[simp] theorem swapPairs_length (l : List Nibble) : (swapPairs l).length = l.length := by
  induction l using swapPairs.induct with
  | case1 a b rest ih => simp [ih]
  | case2 a => rfl
  | case3 => rfl

/-! ### The sequencer's step -/

theorem dataBits_tickFrame (s : State) : dataBits (tickFrame s) = dataBits (slotAt s.fb s.idx.toNat) :=
  dataBits_withClock _ _

/-- The next slot while the index is inside the sequence (R82). -/
theorem nextIdx_toNat {s : State} (h : s.idx.toNat < s.len.toNat) (hl : s.len.toNat ≤ 256) :
    (nextIdx s).toNat = if s.idx.toNat + 1 = s.len.toNat then 0 else s.idx.toNat + 1 := by
  have hw : (s.idx.setWidth 9 + 1#9).toNat = s.idx.toNat + 1 := by
    have := s.idx.isLt
    simp [BitVec.toNat_add, BitVec.toNat_setWidth]
    omega
  unfold nextIdx
  split
  · next hc => rw [if_pos (by rw [← hc, hw])]; rfl
  · next hc =>
    rw [if_neg (fun he => hc (BitVec.eq_of_toNat_eq (by rw [hw, he]))), slotIndex_toNat, hw]
    have hne : s.idx.toNat + 1 ≠ s.len.toNat := fun he => hc (BitVec.eq_of_toNat_eq (by rw [hw, he]))
    omega

/-- The next slot, whatever the index (R82, R88). -/
theorem nextIdx_eq (s : State) :
    nextIdx s = if s.idx.toNat + 1 = s.len.toNat then 0#8 else s.idx + 1#8 := by
  have hw : (s.idx.setWidth 9 + 1#9).toNat = s.idx.toNat + 1 := by
    have := s.idx.isLt
    simp [BitVec.toNat_add, BitVec.toNat_setWidth]
    omega
  unfold nextIdx
  by_cases hc : s.idx.toNat + 1 = s.len.toNat
  · rw [if_pos (BitVec.eq_of_toNat_eq (by rw [hw, hc])), if_pos hc]
  · rw [if_neg (fun he => hc (by rw [← he, hw])), if_neg hc]
    apply BitVec.eq_of_toNat_eq
    rw [slotIndex_toNat, hw]
    simp [BitVec.toNat_add]

/-- The phase toggle rule in terms of R89's counter: one step modulo `2*len`. -/
theorem advance_position {s : State} (h : s.idx.toNat < s.len.toNat) (hl : s.len.toNat ≤ 256) :
    position (advance s) = (position s + 1) % (2 * s.len.toNat) := by
  unfold position
  rw [advance_idx, advance_phase]
  cases hp : s.phase
  · simp only [Bool.not_false, Bool.toNat_true, Bool.toNat_false, Bool.false_eq_true, if_false, nextIdx_toNat h hl]
    split
    · rw [show 2 * s.idx.toNat + (1 - 0) + 1 = 2 * s.len.toNat by omega, Nat.mod_self]
    · rw [Nat.mod_eq_of_lt (by omega)]; omega
  · simp only [Bool.not_true, Bool.toNat_true, Bool.toNat_false, if_true]
    rw [Nat.mod_eq_of_lt (by omega)]

/-! ### The edge and the timer service -/

/-- Without a pulse the timer service notes no load; a due tick stays due while the timer is enabled (R109 c, d). -/
theorem timerSees_of_noPulse {s : State} (h : s.tmrLoadO = false) :
    timerSees s = { s with timer := { s.timer with due := s.timer.due && s.run } } := by
  simp [timerSees, h, State.tmrEnO]

/-- On a pulse it notes the interval on the port (R109 d). -/
theorem timerSees_of_pulse {s : State} (h : s.tmrLoadO = true) :
    timerSees s = { s with timer := { s.timer with loadSeen := some s.tickInterval, due := s.timer.due && s.run } } := by
  simp [timerSees, h, State.tmrIntervalO, State.tmrEnO]

/-- An idle edge as one record update: the pulses fall, and a due tick of a cancelled timer is dropped (R22, R109 c). -/
theorem idleEdge_eq (s : State) :
    idleEdge s =
      { s with
        frameStbO := false
        tmrLoadO := false
        timer := { s.timer with due := s.timer.due && s.run } } := rfl

/-- Everything a time unit can do (R110). -/
theorem timeUnitPasses_cases (s : State) :
    (∃ v, s.timer.loadSeen = some v ∧ v ≠ 0#16 ∧ timeUnitPasses s = .next (timerReload v s)) ∨
    (s.timer.loadSeen = some 0#16 ∧ timeUnitPasses s = .refused .timerPeriodZero) ∨
    (s.timer.loadSeen = none ∧ s.run = true ∧ timeUnitPasses s = .next (timerCount s)) ∨
    (s.timer.loadSeen = none ∧ s.run = false ∧
      timeUnitPasses s = .next { s with timer := { s.timer with due := false } }) := by
  unfold timeUnitPasses
  cases hl : s.timer.loadSeen with
  | some v =>
    by_cases hv : v = 0#16
    · simp [hv]
    · simp [hv]
  | none => cases hr : s.run <;> simp [State.tmrEnO, hr]

end Sys2Proof.Machine
end

