-- ==== Sys2Proof/Laws/Exec.lean ====
section
/-! SUPPORT. What each command answers, by the case its rule distinguishes, and what a step answers, by its input. Later
proofs cite these and unfold no meaning. -/

namespace Sys2Proof.Machine

/-! ### The encoder -/

theorem exec_clr_idle {s : State} (h : s.run = false) :
    exec .clr s = .next { writePreamble s with cnt := 4#9, enc := true, valid := false, ovf := false } := by
  simp [exec, execClr, h, Config.preambleCount]

theorem exec_clr_ignored {s : State} (h : s.run = true) : exec .clr s = .next (ignore .ignoredClr s) := by
  simp [exec, execClr, h]

theorem exec_push_full {s : State} (c : CharCode) (h : s.enc = true) (hc : s.cnt.toNat = 256) :
    exec (.push c) s = .next { s with ovf := true } := by
  simp [exec, execPush, h, hc]

theorem exec_push_opens {s : State} (c : CharCode) (h : s.enc = true) (hn : s.cnt.toNat ≠ 256)
    (hc : s.cnt.toNat % 2 = 0) :
    exec (.push c) s = .next { s with hold := nibble c, cnt := s.cnt + 1#9 } := by
  simp [exec, execPush, h, hn, hc]

theorem exec_push_closes {s : State} (c : CharCode) (h : s.enc = true) (hc : s.cnt.toNat % 2 = 1) :
    exec (.push c) s = .next { writePair (nibble c) s with cnt := s.cnt + 1#9 } := by
  have hn : s.cnt.toNat ≠ 256 := by omega
  simp [exec, execPush, h, hn, hc]

theorem exec_push_ignored {s : State} (c : CharCode) (h : s.enc = false) :
    exec (.push c) s = .next (ignore .ignoredPush s) := by
  simp [exec, execPush, h]

theorem exec_fin_even {s : State} (h : s.enc = true) (hc : s.cnt.toNat % 2 = 0) :
    exec .fin s = .next { s with len := s.cnt, enc := false, valid := !s.ovf } := by
  simp [exec, execFin, h, hc]

theorem exec_fin_odd {s : State} (h : s.enc = true) (hc : s.cnt.toNat % 2 = 1) :
    exec .fin s = .next { writeOddTail s with len := s.cnt, enc := false, valid := !s.ovf } := by
  simp [exec, execFin, h, hc]

theorem exec_fin_ignored {s : State} (h : s.enc = false) : exec .fin s = .next (ignore .ignoredFin s) := by
  simp [exec, execFin, h]

/-! ### The sequencer -/

theorem exec_nop (s : State) : exec .nop s = .next s := rfl

theorem exec_start_valid {s : State} (v : Interval) (h : s.valid = true) :
    exec (.start v) s = .next (timerLoad v { rewind s with tickInterval := v, pend := false, run := true }) := by
  simp [exec, execStart, h]

theorem exec_start_ignored {s : State} (v : Interval) (h : s.valid = false) :
    exec (.start v) s = .next (ignore .ignoredStart s) := by
  simp [exec, execStart, h]

theorem exec_tick_normal {s : State} (h : s.run = true) (hp : s.pend = false) :
    exec .tick s = .next (normalTick s) := by
  simp [exec, execTick, h, hp]

theorem exec_tick_pending {s : State} (h : s.run = true) (hp : s.pend = true) :
    exec .tick s = .next (pendingTick s) := by
  simp [exec, execTick, h, hp]

theorem exec_tick_ignored {s : State} (h : s.run = false) : exec .tick s = .next (ignore .ignoredTick s) := by
  simp [exec, execTick, h]

theorem exec_reconf (v : Interval) (s : State) : exec (.reconf v) s = .next { s with tickInterval := v, pend := true } :=
  rfl

theorem exec_stop (s : State) : exec .stop s = .next { rewind s with run := false, pend := false } := rfl

/-- The commands that do nothing but leave a mark of the model. -/
theorem exec_reserved (s : State) :
    exec .reserved8 s = .next (ignore .reservedOpcode s) ∧ exec .reserved9 s = .next (ignore .reservedOpcode s) ∧
    exec .reservedA s = .next (ignore .reservedOpcode s) ∧ exec .reservedB s = .next (ignore .reservedOpcode s) ∧
    exec .reservedC s = .next (ignore .reservedOpcode s) ∧ exec .reservedD s = .next (ignore .reservedOpcode s) ∧
    exec .reservedE s = .next (ignore .reservedOpcode s) ∧ exec .reservedF s = .next (ignore .reservedOpcode s) :=
  ⟨rfl, rfl, rfl, rfl, rfl, rfl, rfl, rfl⟩

/-- Everything a command can do, one case per branch of its rule. -/
inductive Effect (s : State) : Instr → State → Prop
  /-- Not accepted (R65, R80, R81, R102): only a mark of the model. -/
  | ignored (i : Instr) (m : Mark) (h : accepted i s = false) : Effect s i (ignore m s)
  | reserved (i : Instr) (h : isReserved i = true) : Effect s i (ignore .reservedOpcode s)
  | nop : Effect s .nop s
  | clr (h : s.run = false) :
      Effect s .clr { writePreamble s with cnt := 4#9, enc := true, valid := false, ovf := false }
  | pushFull (c : CharCode) (h : s.enc = true) (hc : s.cnt.toNat = 256) : Effect s (.push c) { s with ovf := true }
  | pushOpens (c : CharCode) (h : s.enc = true) (hn : s.cnt.toNat ≠ 256) (hc : s.cnt.toNat % 2 = 0) :
      Effect s (.push c) { s with hold := nibble c, cnt := s.cnt + 1#9 }
  | pushCloses (c : CharCode) (h : s.enc = true) (hc : s.cnt.toNat % 2 = 1) :
      Effect s (.push c) { writePair (nibble c) s with cnt := s.cnt + 1#9 }
  | finEven (h : s.enc = true) (hc : s.cnt.toNat % 2 = 0) :
      Effect s .fin { s with len := s.cnt, enc := false, valid := !s.ovf }
  | finOdd (h : s.enc = true) (hc : s.cnt.toNat % 2 = 1) :
      Effect s .fin { writeOddTail s with len := s.cnt, enc := false, valid := !s.ovf }
  | start (v : Interval) (h : s.valid = true) :
      Effect s (.start v) (timerLoad v { rewind s with tickInterval := v, pend := false, run := true })
  | tickNormal (h : s.run = true) (hp : s.pend = false) : Effect s .tick (normalTick s)
  | tickPending (h : s.run = true) (hp : s.pend = true) : Effect s .tick (pendingTick s)
  | reconf (v : Interval) : Effect s (.reconf v) { s with tickInterval := v, pend := true }
  | stop : Effect s .stop { rewind s with run := false, pend := false }

/-- Every command answers a next state, and it is one of these (R100). -/
theorem exec_effect (i : Instr) (s : State) : ∃ t, exec i s = .next t ∧ Effect s i t := by
  cases i with
  | nop => exact ⟨_, exec_nop s, .nop⟩
  | clr =>
    cases hr : s.run
    · exact ⟨_, exec_clr_idle hr, .clr hr⟩
    · exact ⟨_, exec_clr_ignored hr, .ignored _ _ (by simp [accepted, hr])⟩
  | push c =>
    cases he : s.enc
    · exact ⟨_, exec_push_ignored c he, .ignored _ _ (by simp [accepted, he])⟩
    · by_cases hf : s.cnt.toNat = 256
      · exact ⟨_, exec_push_full c he hf, .pushFull c he hf⟩
      · by_cases ho : s.cnt.toNat % 2 = 1
        · exact ⟨_, exec_push_closes c he ho, .pushCloses c he ho⟩
        · exact ⟨_, exec_push_opens c he hf (by omega), .pushOpens c he hf (by omega)⟩
  | fin =>
    cases he : s.enc
    · exact ⟨_, exec_fin_ignored he, .ignored _ _ (by simp [accepted, he])⟩
    · by_cases ho : s.cnt.toNat % 2 = 1
      · exact ⟨_, exec_fin_odd he ho, .finOdd he ho⟩
      · exact ⟨_, exec_fin_even he (by omega), .finEven he (by omega)⟩
  | start v =>
    cases hv : s.valid
    · exact ⟨_, exec_start_ignored v hv, .ignored _ _ (by simp [accepted, hv])⟩
    · exact ⟨_, exec_start_valid v hv, .start v hv⟩
  | tick =>
    cases hr : s.run
    · exact ⟨_, exec_tick_ignored hr, .ignored _ _ (by simp [accepted, hr])⟩
    · cases hp : s.pend
      · exact ⟨_, exec_tick_normal hr hp, .tickNormal hr hp⟩
      · exact ⟨_, exec_tick_pending hr hp, .tickPending hr hp⟩
  | reconf v => exact ⟨_, exec_reconf v s, .reconf v⟩
  | stop => exact ⟨_, exec_stop s, .stop⟩
  | _ => exact ⟨_, rfl, .reserved _ rfl⟩

/-- The one inversion of `exec`: if it answers a next state, the command had one of these effects. -/
theorem effect_of_exec {i : Instr} {s t : State} (h : exec i s = .next t) : Effect s i t := by
  obtain ⟨u, hu, he⟩ := exec_effect i s
  rw [h] at hu
  cases hu
  exact he

/-! ### The ticks, field by field -/

@[simp] theorem normalTick_fb (s : State) :
    (normalTick s).fb = Memory.write s.fb s.idx.toNat (tickFrame s) := by simp [normalTick]
@[simp] theorem normalTick_idx (s : State) : (normalTick s).idx = if s.phase then s.idx else nextIdx s := by
  simp [normalTick]
  rfl
@[simp] theorem normalTick_phase (s : State) : (normalTick s).phase = !s.phase := by simp [normalTick]
@[simp] theorem normalTick_frameO (s : State) : (normalTick s).frameO = tickFrame s := by simp [normalTick]
@[simp] theorem normalTick_frameStbO (s : State) : (normalTick s).frameStbO = true := by simp [normalTick]
@[simp] theorem normalTick_trace (s : State) :
    (normalTick s).trace = s.trace ++ [{ frame := tickFrame s, steady := true }] := by simp [normalTick]

/-- A normal TICK as one record update (R82). -/
theorem normalTick_eq (s : State) :
    normalTick s =
      { s with
        fb := Memory.write s.fb s.idx.toNat (tickFrame s)
        frameO := tickFrame s
        frameStbO := true
        trace := s.trace ++ [{ frame := tickFrame s, steady := true }]
        phase := !s.phase
        idx := if s.phase then s.idx else nextIdx s } := by
  unfold normalTick advance
  cases hp : s.phase
  · simp [emit, writeSlot, hp]
    rfl
  · simp [emit, writeSlot, hp]

/-- A pending TICK as one record update (R83). -/
theorem pendingTick_eq (s : State) :
    pendingTick s =
      { s with
        pend := false
        tmrLoadO := true
        loads := s.loads ++ [s.tickInterval]
        frameO := tickFrame s
        frameStbO := true
        trace := s.trace ++ [{ frame := tickFrame s, steady := false }] } := rfl

/-! ### Steps -/

theorem step_empty {s : State} (h : s.inputs = []) : step s = .next (idleEdge s) := by
  simp [step, cycle, h]

theorem step_input {s : State} {i : Input} {rest : List Input} (h : s.inputs = i :: rest) :
    step s = takeInput i { s with inputs := rest } := by
  simp [step, cycle, h]

theorem takeInput_reset (b : Bool) (w : Command) (s : State) : takeInput (.clock true b w) s = .next (resetEdge s) := by
  simp [takeInput, clockEdge]

theorem takeInput_idle (w : Command) (s : State) : takeInput (.clock false false w) s = .next (idleEdge s) := by
  simp [takeInput, clockEdge]

theorem takeInput_command (w : Command) (s : State) :
    takeInput (.clock false true w) s = commandEdge (decode w) s := by
  simp [takeInput, clockEdge]

theorem takeInput_grant_due {s : State} (h : timerRequests s = true) :
    takeInput .grant s = commandEdge .tick (timerGranted s) := by
  simp [takeInput, grantEdge, h]

theorem takeInput_grant_idle {s : State} (h : timerRequests s = false) :
    takeInput .grant s = .next (idleEdge (timerGranted s)) := by
  simp [takeInput, grantEdge, h]

theorem commandEdge_of_exec {i : Instr} {s t : State} (h : exec i (beginEdge s) = .next t) :
    commandEdge i s = .next (timerSees t) := by
  simp [commandEdge, h]

/-- A command edge that answers a next state ran its command to a next state. -/
theorem commandEdge_next {i : Instr} {s t : State} (h : commandEdge i s = .next t) :
    ∃ u, exec i (beginEdge s) = .next u ∧ t = timerSees u := by
  unfold commandEdge at h
  cases he : exec i (beginEdge s) with
  | next u => rw [he] at h; cases h; exact ⟨u, rfl, rfl⟩
  | fault r => cases r
  | refused r => rw [he] at h; cases h

/-- Everything a step can do: if it answers a next state, one of these holds. -/
theorem step_inversion {s t : State} (h : step s = .next t) :
    (s.inputs = [] ∧ t = idleEdge s) ∨
    (∃ b w rest, s.inputs = .clock true b w :: rest ∧ t = resetEdge { s with inputs := rest }) ∨
    (∃ w rest, s.inputs = .clock false false w :: rest ∧ t = idleEdge { s with inputs := rest }) ∨
    (∃ w rest u, s.inputs = .clock false true w :: rest ∧
      exec (decode w) (beginEdge { s with inputs := rest }) = .next u ∧ t = timerSees u) ∨
    (∃ rest u, s.inputs = .grant :: rest ∧ timerRequests s = true ∧
      exec .tick (beginEdge (timerGranted { s with inputs := rest })) = .next u ∧ t = timerSees u) ∨
    (∃ rest, s.inputs = .grant :: rest ∧ timerRequests s = false ∧
      t = idleEdge (timerGranted { s with inputs := rest })) ∨
    (∃ rest, s.inputs = .timeUnit :: rest ∧ timeUnitPasses { s with inputs := rest } = .next t) := by
  cases hi : s.inputs with
  | nil => rw [step_empty hi] at h; cases h; simp
  | cons i rest =>
    rw [step_input hi] at h
    cases i with
    | clock rst cv w =>
      cases rst
      · cases cv
        · rw [takeInput_idle] at h; cases h; simp
        · rw [takeInput_command] at h
          obtain ⟨u, hu, rfl⟩ := commandEdge_next h
          exact .inr (.inr (.inr (.inl ⟨w, rest, u, rfl, hu, rfl⟩)))
      · rw [takeInput_reset] at h; cases h; simp
    | grant =>
      cases hq : timerRequests s
      · rw [takeInput_grant_idle (s := { s with inputs := rest }) hq] at h; cases h; simp
      · rw [takeInput_grant_due (s := { s with inputs := rest }) hq] at h
        obtain ⟨u, hu, rfl⟩ := commandEdge_next h
        exact .inr (.inr (.inr (.inr (.inl ⟨rest, u, rfl, rfl, hu, rfl⟩))))
    | timeUnit => simp; exact h

end Sys2Proof.Machine
end

