-- ==== Sys2Proof/Laws/PerInstr.lean ====
section
/-! SUPPORT. One family of statements about every command, one lemma per constructor: the word of a command carries the
command's opcode in its opcode field (R45, R47). -/

namespace Sys2Proof.Laws.OpcodeField

/-- The opcode field of the command's word is the command's opcode. -/
def Statement (i : Instr) : Prop := opField (encode i) = i.opcode

theorem nop : Statement (.nop) := opField_append _ _
theorem clr : Statement (.clr) := opField_append _ _
theorem push (c : CharCode) : Statement (.push c) := opField_append _ _
theorem fin : Statement (.fin) := opField_append _ _
theorem start (v : Interval) : Statement (.start v) := opField_append _ _
theorem tick : Statement (.tick) := opField_append _ _
theorem reconf (v : Interval) : Statement (.reconf v) := opField_append _ _
theorem stop : Statement (.stop) := opField_append _ _
theorem reserved8 : Statement (.reserved8) := opField_append _ _
theorem reserved9 : Statement (.reserved9) := opField_append _ _
theorem reservedA : Statement (.reservedA) := opField_append _ _
theorem reservedB : Statement (.reservedB) := opField_append _ _
theorem reservedC : Statement (.reservedC) := opField_append _ _
theorem reservedD : Statement (.reservedD) := opField_append _ _
theorem reservedE : Statement (.reservedE) := opField_append _ _
theorem reservedF : Statement (.reservedF) := opField_append _ _

end Sys2Proof.Laws.OpcodeField
end

