-- ==== Sys2Proof/Laws/Step.lean ====
section
/-! SUPPORT. What a step can do, in three cases, and runs over command words. -/

namespace Sys2Proof.Machine

theorem nextCommand_cons {s : State} {i : Input} {rest : List Input} (h : s.inputs = i :: rest) :
    nextCommand s = commandOf i s := by simp [nextCommand, h]

theorem nextIsReset_cons {s : State} {i : Input} {rest : List Input} (h : s.inputs = i :: rest) :
    nextIsReset s = isResetInput i := by simp [nextIsReset, h]

theorem nextIsTimeUnit_cons {s : State} {i : Input} {rest : List Input} (h : s.inputs = i :: rest) :
    nextIsTimeUnit s = (i == .timeUnit) := by simp [nextIsTimeUnit, h]

/-- A step that answers a next state executes a command on the state whose pulses have fallen, or touches nothing but the
timer service, the pulses and the inputs, or is a reset edge. -/
inductive StepEffect (s : State) : State → Prop
  /-- The command runs on `s1`: `s` with its input taken, its pulses down and perhaps its due tick delivered. -/
  | command (i : Instr) (s1 u : State) (due : Bool) (ins : List Input) (hc : nextCommand s = some i)
      (hr : nextIsReset s = false) (ht : nextIsTimeUnit s = false)
      (h1 : s1 = { s with
        timer := { s.timer with due := due }, inputs := ins, frameStbO := false, tmrLoadO := false })
      (he : Effect s1 i u) : StepEffect s (timerSees u)
  | idle (ins : List Input) (due : Bool) (hc : nextCommand s = none) (hr : nextIsReset s = false)
      (ht : nextIsTimeUnit s = false) :
      StepEffect s { s with
        timer := { s.timer with due := due }, inputs := ins, frameStbO := false, tmrLoadO := false }
  | timeUnit (ins : List Input) (t : State) (hc : nextCommand s = none) (hr : nextIsReset s = false)
      (ht : nextIsTimeUnit s = true) (h : timeUnitPasses { s with inputs := ins } = .next t) : StepEffect s t
  | reset (ins : List Input) (hc : nextCommand s = none) (hr : nextIsReset s = true) (ht : nextIsTimeUnit s = false) :
      StepEffect s (resetEdge { s with inputs := ins })

/-- The one inversion of `step`. -/
theorem effect_of_step {s t : State} (h : step s = .next t) : StepEffect s t := by
  rcases step_inversion h with ⟨hi, rfl⟩ | ⟨b, w, rest, hi, rfl⟩ | ⟨w, rest, hi, rfl⟩ | ⟨w, rest, u, hi, hu, rfl⟩ |
    ⟨rest, u, hi, hq, hu, rfl⟩ | ⟨rest, hi, hq, rfl⟩ | ⟨rest, hi, ht⟩
  · exact .idle s.inputs (s.timer.due && s.run) (by simp [nextCommand, hi]) (by simp [nextIsReset, hi])
      (by simp [nextIsTimeUnit, hi])
  · exact .reset rest (by rw [nextCommand_cons hi]; rfl) (by rw [nextIsReset_cons hi]; rfl)
      (by rw [nextIsTimeUnit_cons hi]; rfl)
  · exact .idle rest (s.timer.due && s.run) (by rw [nextCommand_cons hi]; rfl) (by rw [nextIsReset_cons hi]; rfl)
      (by rw [nextIsTimeUnit_cons hi]; rfl)
  · exact .command _ _ u s.timer.due rest (by rw [nextCommand_cons hi]; rfl) (by rw [nextIsReset_cons hi]; rfl)
      (by rw [nextIsTimeUnit_cons hi]; rfl) rfl (effect_of_exec hu)
  · exact .command .tick _ u false rest (by rw [nextCommand_cons hi]; simp [commandOf, hq])
      (by rw [nextIsReset_cons hi]; rfl) (by rw [nextIsTimeUnit_cons hi]; rfl) rfl (effect_of_exec hu)
  · exact .idle rest false (by rw [nextCommand_cons hi]; simp [commandOf, hq]) (by rw [nextIsReset_cons hi]; rfl)
      (by rw [nextIsTimeUnit_cons hi]; rfl)
  · exact .timeUnit rest t (by rw [nextCommand_cons hi]; rfl) (by rw [nextIsReset_cons hi]; rfl)
      (by rw [nextIsTimeUnit_cons hi]; rfl) ht

/-- A time unit touches the timer service's registers and the inputs only (R110). -/
theorem timeUnitPasses_frame {s t : State} (h : timeUnitPasses s = .next t) : t = { s with timer := t.timer } := by
  rcases timeUnitPasses_cases s with ⟨v, _, _, e⟩ | ⟨_, e⟩ | ⟨_, _, e⟩ | ⟨_, _, e⟩ <;> rw [e] at h <;> cases h
  · rfl
  · unfold timerCount; split <;> rfl
  · rfl

/-- A normal TICK changes no data position of the buffer (R26, R82). -/
theorem dataBits_slotAt_normalTick (s : State) (j : Nat) :
    dataBits (slotAt (normalTick s).fb j) = dataBits (slotAt s.fb j) := by
  rw [normalTick_fb, slotAt_write]
  split
  · subst_vars; exact dataBits_tickFrame s
  · rfl

/-! ### What a step does beside a command touches nothing the invariant speaks of -/

theorem inv_of_edge {s : State} (h : Inv s) (timer : Timer) (ins : List Input) (stb load : Bool) :
    Inv { s with timer := timer, inputs := ins, frameStbO := stb, tmrLoadO := load } :=
  ⟨h.memWf, h.openNotValid, h.runningValid, h.lenInRange, h.idxInSequence, h.cntInRange, h.idleAtStart,
    h.validNoOverflow, h.sequenceWritten, h.pairsWritten⟩

/-- After a clock edge the timer service changes its own registers only (R109). -/
theorem timerSees_frame (s : State) : timerSees s = { s with timer := (timerSees s).timer } := rfl

/-! ### Runs over command words -/

theorem runSteps_zero (s : State) : runSteps 0 s = .next s := rfl

theorem run_succ_of_next (M : Host.Core) (n : Nat) (s t : M.State) (h : M.step s = .next t) :
    M.run (n + 1) s = M.run n t := by
  rw [Host.Core.run, h]

theorem runSteps_succ (n : Nat) {s t : State} (h : step s = .next t) : runSteps (n + 1) s = runSteps n t :=
  run_succ_of_next Sys2Proof.core n s t h

@[simp] theorem withWords_nil (s : State) : withWords [] s = s := rfl

/-- A run over no words goes nowhere. -/
theorem runsWords_nil (s : State) : RunsWords [] s s := rfl

/-- No command takes an input. -/
theorem Effect.inputs {s t : State} {i : Instr} (h : Effect s i t) : t.inputs = s.inputs := by
  cases h <;> simp [normalTick, pendingTick]

/-- No command touches the timer service; it sees the pulses only (R108). -/
theorem Effect.timer {s t : State} {i : Instr} (h : Effect s i t) : t.timer = s.timer := by
  cases h <;> simp [normalTick, pendingTick]

/-- No command looks at the inputs still to come. -/
theorem exec_inputs {i : Instr} {s t : State} (x : List Input) (h : exec i s = .next t) :
    exec i { s with inputs := x } = .next { t with inputs := x } := by
  cases i with
  | nop => cases h; rfl
  | clr =>
    rcases Bool.dichotomy s.run with hr | hr
    · rw [exec_clr_idle hr] at h; cases h; exact exec_clr_idle hr
    · rw [exec_clr_ignored hr] at h; cases h; exact exec_clr_ignored hr
  | push c =>
    rcases Bool.dichotomy s.enc with he | he
    · rw [exec_push_ignored c he] at h; cases h; exact exec_push_ignored c he
    · by_cases hf : s.cnt.toNat = 256
      · rw [exec_push_full c he hf] at h; cases h; exact exec_push_full c he hf
      · by_cases ho : s.cnt.toNat % 2 = 1
        · rw [exec_push_closes c he ho] at h; cases h; exact exec_push_closes c he ho
        · rw [exec_push_opens c he hf (by omega)] at h; cases h
          exact exec_push_opens (s := { s with inputs := x }) c he hf (by show s.cnt.toNat % 2 = 0; omega)
  | fin =>
    rcases Bool.dichotomy s.enc with he | he
    · rw [exec_fin_ignored he] at h; cases h; exact exec_fin_ignored he
    · by_cases ho : s.cnt.toNat % 2 = 1
      · rw [exec_fin_odd he ho] at h; cases h; exact exec_fin_odd he ho
      · rw [exec_fin_even he (by omega)] at h; cases h
        exact exec_fin_even (s := { s with inputs := x }) he (by show s.cnt.toNat % 2 = 0; omega)
  | start v =>
    rcases Bool.dichotomy s.valid with hv | hv
    · rw [exec_start_ignored v hv] at h; cases h; exact exec_start_ignored v hv
    · rw [exec_start_valid v hv] at h; cases h; exact exec_start_valid v hv
  | tick =>
    rcases Bool.dichotomy s.run with hr | hr
    · rw [exec_tick_ignored hr] at h; cases h; exact exec_tick_ignored hr
    · rcases Bool.dichotomy s.pend with hp | hp
      · rw [exec_tick_normal hr hp, normalTick_eq] at h; cases h
        rw [exec_tick_normal (s := { s with inputs := x }) hr hp, normalTick_eq]
        rfl
      · rw [exec_tick_pending hr hp] at h; cases h; exact exec_tick_pending hr hp
  | reconf v => cases h; rfl
  | stop => cases h; rfl
  | _ => cases h; rfl

/-- A run over words is the edge of the first command, then the run over the rest. -/
theorem runsWords_cons {w : Command} {ws : List Command} {s u t : State}
    (h : exec (decode w) (beginEdge s) = .next u) (hr : RunsWords ws (timerSees u) t) : RunsWords (w :: ws) s t := by
  have hin : (withWords (w :: ws) s).inputs = .clock false true w :: (withWords ws s).inputs := by
    simp [withWords]
  have hs : step (withWords (w :: ws) s) = .next (withWords ws (timerSees u)) := by
    rw [step_input hin, takeInput_command]
    have hu : u.inputs = s.inputs := (effect_of_exec h).inputs
    refine (commandEdge_of_exec (exec_inputs (withWords ws s).inputs h)).trans ?_
    simp [withWords, timerSees, State.tmrIntervalO, State.tmrEnO, hu]
  unfold RunsWords at *
  rw [List.length_cons, runSteps_succ _ hs]
  exact hr

/-- One command after another, every command answering (R100): every list of words has a run, and only one. -/
theorem runsWords_exists (ws : List Command) (s : State) : ∃ t, RunsWords ws s t := by
  induction ws generalizing s with
  | nil => exact ⟨s, runsWords_nil s⟩
  | cons w ws ih =>
    obtain ⟨u, hu, _⟩ := exec_effect (decode w) (beginEdge s)
    obtain ⟨t, ht⟩ := ih (timerSees u)
    exact ⟨t, runsWords_cons hu ht⟩

theorem runsWords_unique {ws : List Command} {s t t' : State} (h : RunsWords ws s t) (h' : RunsWords ws s t') :
    t = t' := by
  unfold RunsWords at h h'
  rw [h] at h'
  cases h'
  rfl

/-- Runs follow one another. -/
theorem runsWords_append {ws vs : List Command} {s u t : State} (h : RunsWords ws s u) (h' : RunsWords vs u t) :
    RunsWords (ws ++ vs) s t := by
  induction ws generalizing s with
  | nil => rw [runsWords_unique h (runsWords_nil s)] at h'; exact h'
  | cons w ws ih =>
    obtain ⟨v, hv, _⟩ := exec_effect (decode w) (beginEdge s)
    obtain ⟨x, hx⟩ := runsWords_exists ws (timerSees v)
    have := runsWords_unique h (runsWords_cons hv hx)
    subst this
    exact runsWords_cons hv (ih hx)

end Sys2Proof.Machine
end

