-- ==== Sys2Proof/Tests/Slice0.lean ====
section
/-! SUPPORT. The model's own tests: the well-formedness smoke, decoding of words written out from R45 to R47, one-step
vectors of `95_test_vectors.md` (its ids stand in the comments), and one witness for the hypotheses of every obligation. -/

namespace Sys2Proof.Tests

open Sys2Proof Sys2Proof.Machine

/-! ## Well-formedness (R51) -/

theorem test_wf_pushCode_range : AsmLine.wellFormed (.pushCode 255) = true ∧ AsmLine.wellFormed (.pushCode 256) = false := by
  decide
theorem test_wf_pushChar_range : AsmLine.wellFormed (.pushChar '~') = true ∧ AsmLine.wellFormed (.pushChar '\n') = false ∧
    AsmLine.wellFormed (.pushChar 'é') = false := by decide
theorem test_wf_start_range : AsmLine.wellFormed (.start 65535) = true ∧ AsmLine.wellFormed (.start 65536) = false := by
  decide
theorem test_wf_reconf_range : AsmLine.wellFormed (.reconf 65535) = true ∧ AsmLine.wellFormed (.reconf 65536) = false := by
  decide
theorem test_wf_instr : Instr.wellFormed (.push 0xFF#8) = true := by decide

/-! ## Decoding: the opcode nibble, then the 16 operand bits, written out from the opcode map (R47)

Ignored operand bits are driven to 1 in the words with `F`s. The last row is the first number the port cannot carry. -/

theorem test_decode_nop : decode 0b0000_0000000000000000#20 = .nop := by decide
theorem test_decode_clr : decode 0b0001_0000000000000000#20 = .clr := by decide
theorem test_decode_push : decode 0b0010_0000000000110001#20 = .push 0x31#8 := by decide
theorem test_decode_fin : decode 0b0011_0000000000000000#20 = .fin := by decide
theorem test_decode_start : decode 0b0100_0000000000110010#20 = .start 50#16 := by decide
theorem test_decode_tick : decode 0b0101_0000000000000000#20 = .tick := by decide
theorem test_decode_reconf : decode 0b0110_0000000001100100#20 = .reconf 100#16 := by decide
theorem test_decode_stop : decode 0b0111_0000000000000000#20 = .stop := by decide
theorem test_decode_reserved_low : decode 0b1000_0000000000000000#20 = .reserved8 ∧
    decode 0b1001_0000000000000000#20 = .reserved9 ∧ decode 0b1010_0000000000000000#20 = .reservedA ∧
    decode 0b1011_0000000000000000#20 = .reservedB := by decide
theorem test_decode_reserved_high : decode 0b1100_0000000000000000#20 = .reservedC ∧
    decode 0b1101_0000000000000000#20 = .reservedD ∧ decode 0b1110_0000000000000000#20 = .reservedE ∧
    decode 0b1111_0000000000000000#20 = .reservedF := by decide
/-- V26, V59, V60 and the decoder vectors of section 4. -/
theorem test_decode_ignored_bits : decode 0x2FF41#20 = .push 0x41#8 ∧ decode 0x0ABCD#20 = .nop ∧
    decode 0x3BEEF#20 = .fin ∧ decode 0x50001#20 = .tick ∧ decode 0xF1234#20 = .reservedF := by decide
theorem test_decodeNumber_range : decodeNumber 0xFFFFF = .ok .reservedF ∧
    decodeNumber 0x100000 = .error .notACommandWord := ⟨rfl, rfl⟩
theorem test_decodeTableWord : decodeTableWord 20 0x60064 = some (.reconf 100#16) ∧
    decodeTableWord 24 0x20031 = some (.push 0x31#8) := by decide
/-- The words of P3's first and fourth lines. -/
theorem test_assemble : (AsmLine.encodeText [0x31#8, 0x41#8]).words = [0x10000#20, 0x20031#20, 0x20041#20, 0x30000#20] ∧
    (AsmLine.reconf 100).words = [0x60064#20] ∧ (AsmLine.pushChar 'A').words = [0x20041#20] := by decide

/-! ## The pure functions -/

/-- V1 to V6. -/
theorem test_nibble : [0x30#8, 0x39#8, 0x41#8, 0x46#8, 0x61#8, 0x66#8].map nibble = [0#4, 9#4, 10#4, 15#4, 10#4, 15#4] ∧
    [0x2F#8, 0x3A#8, 0x40#8, 0x47#8, 0x60#8, 0x67#8, 0x00#8, 0xFF#8].map nibble = List.replicate 8 0#4 := by decide
/-- S2, V7. -/
theorem test_lut : lut 8#4 = 0b10000#5 ∧ lut 0#4 = 0#5 ∧ lut 15#4 = 0x1E#5 := by decide
/-- The code `1A2B` of S4. -/
def text1A2B : List CharCode := [0x31#8, 0x41#8, 0x32#8, 0x42#8]
/-- S4 and the frame buffer of the ready state of section 4. -/
theorem test_encode_even : encodeChallenge text1A2B =
    [0x1E#5, 0x00#5, 0x1E#5, 0x1E#5, 0x14#5, 0x02#5, 0x16#5, 0x04#5] := by decide
/-- P2 (the odd tail) and V25 (the empty challenge). -/
theorem test_encode_odd_and_empty : encodeChallenge [0x37#8] = [0x1E#5, 0x00#5, 0x1E#5, 0x1E#5, 0x00#5] ∧
    encodeChallenge [] = [0x1E#5, 0x00#5, 0x1E#5, 0x1E#5] := by decide

/-! ## States of the vectors -/

/-- The frames of a buffer from slot 0 on. -/
def frames (fs : List Frame) : Memory := List.zip (List.range fs.length) fs

/-- The four slots of the preamble. -/
def preambleFrames : List Frame := [0x1E#5, 0x00#5, 0x1E#5, 0x1E#5]

/-- V20's after: an encode open with no character. -/
def opened : State := { State.reset with fb := frames preambleFrames, cnt := 4#9, enc := true }

/-- V21's after: the character `1` waits. -/
def waiting : State := { opened with hold := 1#4, cnt := 5#9 }

/-- An open encode with a full buffer less one slot, every slot written (V33). -/
def almostFull : State :=
  { opened with fb := frames (List.replicate 254 0#5), cnt := 255#9, hold := 10#4 }

/-- An open encode with a full buffer (V34). -/
def bufferFull : State := { opened with fb := frames (List.replicate 256 0#5), cnt := 256#9 }

/-- V36's after: a character was dropped, the encode is finished. -/
def overflowed : State := { bufferFull with len := 256#9, enc := false, ovf := true }

/-- The ready state `1A2B` of section 4. -/
def ready : State :=
  { State.reset with fb := frames (encodeChallenge text1A2B), cnt := 8#9, hold := 2#4, len := 8#9, valid := true }

/-- The ready state after `START 50`, at a position. -/
def runningAt (idx : SlotIndex) (phase : Bool) : State :=
  { ready with run := true, idx := idx, phase := phase, timer := { period := 50#16, tcnt := 50#16, due := false, loadSeen := none } }

/-- V45's after: a running sequence with an interval change pending. -/
def pendingRun : State := { runningAt 1#8 true with pend := true, tickInterval := 100#16 }

/-- The state with one input presented. -/
def given (i : Input) (s : State) : State := { s with inputs := [i] }

/-! ## One step of each command -/

/-- V20: CLR on the reset state. -/
theorem test_clr : ∃ t, exec .clr State.reset = .next t ∧ t = { opened with fb := t.fb } ∧
    (List.range 5).map (Memory.read? t.fb) = [some 0x1E#5, some 0x00#5, some 0x1E#5, some 0x1E#5, none] :=
  ⟨_, rfl, by decide⟩
/-- V32: CLR while running changes nothing of the hardware. -/
theorem test_clr_running : exec .clr (runningAt 0#8 true) =
    .next { runningAt 0#8 true with marks := [.ignoredClr] } := rfl
/-- V22: the second character of a pair goes to the lower slot, the waiting one to the upper. -/
theorem test_push_closes : ∃ t, exec (.push 0x41#8) waiting = .next t ∧ Memory.read? t.fb 4 = some 0x14#5 ∧
    Memory.read? t.fb 5 = some 0x02#5 ∧ t.cnt = 6#9 := ⟨_, rfl, by decide⟩
/-- V34: a PUSH to a full buffer only sets `OVF`; `status_o = 0b10001`. -/
theorem test_push_full : ∃ t, exec (.push 0x37#8) bufferFull = .next t ∧ t.cnt = 256#9 ∧ t.hold = 0#4 ∧
    t.statusO = 0b10001#5 := ⟨_, rfl, by decide⟩
/-- V24: an odd tail. -/
theorem test_fin_odd : ∃ t, exec .fin waiting = .next t ∧ Memory.read? t.fb 4 = some 0x00#5 ∧ t.len = 5#9 ∧
    t.statusO = 0b00010#5 := ⟨_, rfl, by decide⟩
/-- V36: FIN after an overflow: no valid result. -/
theorem test_fin_overflow : ∃ t, exec .fin { bufferFull with ovf := true } = .next t ∧ t.len = 256#9 ∧
    t.statusO = 0b10000#5 := ⟨_, rfl, by decide⟩
/-- V40. -/
theorem test_start : ∃ t, exec (.start 50#16) ready = .next t ∧ t.run = true ∧ t.idx = 0#8 ∧ t.phase = true ∧
    t.loads = [50#16] ∧ t.trace = [] ∧ t.statusO = 0b00110#5 := ⟨_, rfl, by decide⟩
/-- V57: START with an encode open is ignored. -/
theorem test_start_open : exec (.start 50#16) opened = .next { opened with marks := [.ignoredStart] } := rfl
/-- V41: slot 7 with clock 0, then back to slot 0 and clock 1. -/
theorem test_tick_wraps : ∃ t, exec .tick (runningAt 7#8 false) = .next t ∧ t.frameO = 0x04#5 ∧ t.idx = 0#8 ∧
    t.phase = true := ⟨_, rfl, by decide⟩
/-- V46: a pending TICK shows slot 1 with clock 1, loads 100 and keeps the position. -/
theorem test_tick_pending : ∃ t, exec .tick pendingRun = .next t ∧ t.frameO = 0x01#5 ∧ t.pend = false ∧
    t.loads = [100#16] ∧ t.idx = 1#8 ∧ t.phase = true := ⟨_, rfl, by decide⟩
/-- V45. -/
theorem test_reconf : ∃ t, exec (.reconf 100#16) (runningAt 1#8 true) = .next t ∧ t.tickInterval = 100#16 ∧
    t.loads = [] ∧ t.statusO = 0b01110#5 := ⟨_, rfl, by decide⟩
/-- V53: STOP keeps the interval and the result. -/
theorem test_stop : ∃ t, exec .stop { pendingRun with idx := 5#8, phase := false } = .next t ∧ t.idx = 0#8 ∧
    t.phase = true ∧ t.tickInterval = 100#16 ∧ t.statusO = 0b00010#5 := ⟨_, rfl, by decide⟩
/-- V59. -/
theorem test_nop : exec .nop pendingRun = .next pendingRun := rfl
/-- V60: a reserved opcode changes nothing of the hardware. -/
theorem test_reserved : exec .reserved9 pendingRun = .next { pendingRun with marks := [.reservedOpcode] } := rfl

/-! ## Steps -/

/-- V61: a reset edge wins over the START on the port. -/
theorem test_reset_edge : ∃ t, step (given (.clock true true 0x40032#20) ready) = .next t ∧ t.run = false ∧
    t.tmrLoadO = false ∧ t.len = 0#9 ∧ t.fb = ready.fb := ⟨_, rfl, by decide⟩
/-- Section 6, cycle 0: the outputs after `START 50`, and what the timer service saw (R109 d). -/
theorem test_start_outputs : ∃ t, step (ready.withFetchWord 20 0x40032) = .next t ∧ t.frameO = 0#5 ∧
    t.frameStbO = false ∧ t.tmrLoadO = true ∧ t.tmrIntervalO = 50#16 ∧ t.tmrEnO = true ∧ t.statusO = 0b00110#5 ∧
    t.timer.loadSeen = some 50#16 := ⟨_, rfl, by decide⟩
/-- Section 6, cycle 2: an idle cycle takes the pulse down and keeps the frame. -/
theorem test_idle_outputs : ∃ t, step { runningAt 0#8 false with frameO := 0x1F#5, frameStbO := true } = .next t ∧
    t.frameO = 0x1F#5 ∧ t.frameStbO = false := ⟨_, rfl, by decide⟩
/-- Bar 0 is the clock bar, bar 4 the most significant data bit (R112). -/
theorem test_bars : ({ State.reset with frameO := 0b10001#5 } : State).bar 0 = true ∧
    ({ State.reset with frameO := 0b10001#5 } : State).bar 4 = true ∧
    ({ State.reset with frameO := 0b10001#5 } : State).bar 1 = false := by decide
/-- Each row's word is presented and runs as the first command after reset. -/
theorem test_fetch_word : nextCommand (State.reset.withFetchWord 20 0x60007) = some (.reconf 7#16) ∧
    ∃ t, step (State.reset.withFetchWord 20 0x60007) = .next t ∧ t.statusO = 0b01000#5 := ⟨by decide, _, rfl, by decide⟩

/-! ## States that satisfy the invariant -/

theorem ready_inv : Inv ready :=
  ⟨by decide, by decide, by decide, by decide, by decide, by decide, by decide, by decide, by decide, by decide⟩
theorem running_inv : Inv (runningAt 7#8 false) :=
  ⟨by decide, by decide, by decide, by decide, by decide, by decide, by decide, by decide, by decide, by decide⟩
theorem runningStart_inv : Inv (runningAt 0#8 true) :=
  ⟨by decide, by decide, by decide, by decide, by decide, by decide, by decide, by decide, by decide, by decide⟩
theorem opened_inv : Inv opened :=
  ⟨by decide, by decide, by decide, by decide, by decide, by decide, by decide, by decide, by decide, by decide⟩
theorem waiting_inv : Inv waiting :=
  ⟨by decide, by decide, by decide, by decide, by decide, by decide, by decide, by decide, by decide, by decide⟩
/-- The upper end of the range of `cnt` with a character waiting. -/
theorem almostFull_inv : Inv almostFull :=
  ⟨by decide +kernel, by decide, by decide, by decide, by decide, by decide, by decide, by decide, by decide,
    by decide +kernel⟩
theorem reset_memory_wf : Memory.wf State.reset.fb = true := by decide

/-! ## Witnesses: for each obligation, values that meet its hypotheses, clause by clause -/

theorem witness_DecodeOfEncode : Instr.wellFormed (.start 0xFFFF#16) = true := by decide
theorem witness_DecodeFollowsOpcodeMap : 0x2FF41#20 &&& 0xF0000#20 = 0x20000#20 ∧ 0xFFFFF#20 &&& 0xF0000#20 = 0xF0000#20 := by
  decide
theorem witness_OnlyOperandBitsMatter :
    (opField 0x2FF41#20 = opField 0x20041#20 ∧ opField 0x20041#20 = 0x2#4 ∧
      (0x2FF41#20).toNat % 2 ^ 8 = (0x20041#20).toNat % 2 ^ 8) ∧
    (opField 0x3BEEF#20 = opField 0x30000#20 ∧ opField 0x30000#20 ≠ 0x2#4 ∧ opField 0x30000#20 ≠ 0x4#4) ∧
    opField 0x4FFFF#20 = 0x4#4 ∧ opField 0x6FFFF#20 = 0x6#4 := by decide
theorem witness_LutRowIsLsbFirst : lut 9#4 = lut 9#4 := rfl
/-- The last slot, with a partner (even length) and without one (odd length). -/
theorem witness_EncodeSwapsPairs : 3 < ([] : List CharCode).length + 4 ∧ 4 < [0x37#8].length + 4 := by decide
theorem witness_EncodeProperties :
    (4 % 2 = 0 ∧ (code text1A2B)[4]? = some 0x31#8 ∧ (code text1A2B)[4 + 1]? = some 0x41#8) ∧
    ([0x31#8, 0x41#8].length = [0x31#8, 0x61#8].length ∧ [0x31#8, 0x41#8].length % 2 = 0) ∧
    ([0x37#8].length = [0x38#8].length ∧ [0x37#8].length % 2 = 1) := by decide
theorem witness_ClrBeginsEncode : ready.run = false ∧ opened.run = false ∧ (runningAt 0#8 true).run = true := by decide
/-- Full, opening at both ends of the range, closing at both ends, ignored. -/
theorem witness_PushTakesCharacter :
    (bufferFull.enc = true ∧ bufferFull.cnt.toNat = 256) ∧
    (opened.enc = true ∧ opened.cnt.toNat ≠ 256 ∧ opened.cnt.toNat % 2 = 0) ∧
    (({ bufferFull with cnt := 254#9 } : State).cnt.toNat ≠ 256 ∧ ({ bufferFull with cnt := 254#9 } : State).cnt.toNat % 2 = 0) ∧
    (waiting.enc = true ∧ waiting.cnt.toNat % 2 = 1) ∧ (almostFull.enc = true ∧ almostFull.cnt.toNat % 2 = 1) ∧
    ready.enc = false := by decide
theorem witness_FinPublishesResult :
    (bufferFull.enc = true ∧ bufferFull.cnt.toNat % 2 = 0) ∧ (waiting.enc = true ∧ waiting.cnt.toNat % 2 = 1) ∧
    (almostFull.enc = true ∧ almostFull.cnt.toNat % 2 = 1) ∧ ready.enc = false := by decide
theorem witness_PairSlotsAreInsideTheBuffer :
    (Inv waiting ∧ waiting.enc = true ∧ waiting.cnt.toNat % 2 = 1) ∧
    (Inv almostFull ∧ almostFull.enc = true ∧ almostFull.cnt.toNat % 2 = 1) :=
  ⟨⟨waiting_inv, by decide⟩, ⟨almostFull_inv, by decide⟩⟩
/-- A TICK and a START stand between the characters; the second and third lines are the longest string that fits and
the shortest that does not. -/
theorem witness_CommandsComputeEncode :
    (State.reset.run = false ∧ decode 0x10000#20 = .clr ∧ decode 0x30000#20 = .fin ∧
      ([0x20031#20, 0x50000#20, 0x20041#20, 0x40032#20].map decode).filter isEncoderCommand =
        [0x31#8, 0x41#8].map Instr.push) ∧
    (((List.replicate 252 0x20037#20).map decode).filter isEncoderCommand = (List.replicate 252 0x37#8).map Instr.push ∧
      (List.replicate 252 0x37#8).length ≤ 252) ∧
    (((List.replicate 253 0x20037#20).map decode).filter isEncoderCommand = (List.replicate 253 0x37#8).map Instr.push ∧
      252 < (List.replicate 253 0x37#8).length) := by
  refine ⟨by decide, ⟨?_, by rw [List.length_replicate]⟩, ⟨?_, by rw [List.length_replicate]; decide⟩⟩ <;>
    rw [List.map_replicate, List.map_replicate, show decode 0x20037#20 = .push 0x37#8 by decide] <;>
    exact List.filter_eq_self.2 fun i hi => by rw [List.eq_of_mem_replicate hi]; rfl
theorem witness_OverflowLocksOutStart :
    overflowed.ovf = true ∧ overflowed.valid = false ∧ overflowed.run = false ∧
    ∀ w ∈ [0x40032#20, 0x50000#20, 0x30000#20], decode w ≠ .clr := by
  refine ⟨rfl, rfl, rfl, fun w hw => ?_⟩
  simp only [List.mem_cons, List.not_mem_nil, or_false] at hw
  rcases hw with rfl | rfl | rfl <;> exact fun h => nomatch h
theorem witness_StartBeginsShowing : ready.valid = true ∧ overflowed.valid = false := by decide
theorem witness_TickIsGatedByRun : ready.run = false ∧ pendingRun.run = true ∧ (runningAt 0#8 true).run = true := by decide
/-- Phase 1; phase 0 at the last slot; phase 0 just before it. -/
theorem witness_NormalTickEmitsThenSteps :
    ((runningAt 7#8 true).run = true ∧ (runningAt 7#8 true).pend = false ∧ (runningAt 7#8 true).phase = true) ∧
    ((runningAt 7#8 false).phase = false ∧ (runningAt 7#8 false).idx.toNat + 1 = (runningAt 7#8 false).len.toNat) ∧
    ((runningAt 6#8 false).phase = false ∧ (runningAt 6#8 false).idx.toNat + 1 ≠ (runningAt 6#8 false).len.toNat) := by
  decide
theorem witness_PendingTickReschedules : pendingRun.run = true ∧ pendingRun.pend = true := by decide
theorem witness_NopIsIdle : decode 0x0ABCD#20 = .nop := by decide
theorem witness_ReservedExecutesAsNop : Instr.reservedF ∈ [Instr.reserved8, .reserved9, .reservedA, .reservedB,
    .reservedC, .reservedD, .reservedE, .reservedF] := by decide
theorem witness_MarksAreLeftByIgnoredAndReserved : ∃ t, exec .fin ready = .next t ∧ t.marks = [.ignoredFin] :=
  ⟨_, rfl, by decide⟩
theorem witness_EveryCommandCompletes : accepted .fin ready = false ∧ accepted .fin waiting = true := by decide
/-- Every mode; an ignored cell; a STOP outside a run, with an idle RECONF before it (V51). -/
theorem witness_AcceptanceTable :
    modeOf State.reset = some .empty ∧ modeOf opened = some .encodeOpen ∧ modeOf ready = some .ready ∧
    modeOf (runningAt 0#8 true) = some .running ∧ (∃ t, exec .tick ready = .next t) ∧ executedIn .tick .ready = false ∧
    Mode.ready ≠ .running ∧ Inv ready ∧ (∃ t, exec .stop ready = .next t) ∧
    isReserved .reserved8 = true ∧ (∃ t, exec .reserved8 ready = .next t) :=
  ⟨by decide, by decide, by decide, by decide, ⟨_, rfl⟩, by decide, by decide, ready_inv, ⟨_, rfl⟩, by decide, ⟨_, rfl⟩⟩
/-- A step that emits, a step that does not, a reset edge. -/
theorem witness_OnlyRunningTicksEmit :
    (∃ t, step (given .grant { runningAt 0#8 true with timer := { period := 5#16, tcnt := 5#16, due := true, loadSeen := none } }) =
      .next t ∧ t.trace.length = 1) ∧
    (∃ t, step (given (.clock false true 0x50000#20) ready) = .next t ∧ t.trace = []) ∧
    (∃ t, step (given (.clock true false 0#20) { ready with frameO := 0x1F#5 }) = .next t ∧ t.frameO = 0#5) :=
  ⟨⟨_, rfl, by decide⟩, ⟨_, rfl, by decide⟩, ⟨_, rfl, by decide⟩⟩
/-- One step for each clause, which changes what the clause speaks of. -/
theorem witness_OwnershipOfState :
    (∃ t, step (given (.clock false true 0x50000#20) (runningAt 7#8 false)) = .next t ∧ t.idx ≠ 7#8) ∧
    (∃ t, step (given (.clock false true 0x60064#20) ready) = .next t ∧ t.tickInterval ≠ ready.tickInterval ∧ t.pend ≠ ready.pend) ∧
    (∃ t, step (given (.clock false true 0x70000#20) (runningAt 7#8 false)) = .next t ∧ t.run ≠ true) ∧
    (∃ t, step (given (.clock false true 0x20041#20) waiting) = .next t ∧ t.cnt ≠ waiting.cnt) ∧
    nextIsReset (given (.clock false true 0x20041#20) waiting) = false :=
  ⟨⟨_, rfl, by decide⟩, ⟨_, rfl, by decide⟩, ⟨_, rfl, by decide⟩, ⟨_, rfl, by decide⟩, by decide⟩
/-- A CLR presented to a running sequence. -/
theorem witness_RunningSequenceIsNotModified : Inv (given (.clock false true 0x10000#20) (runningAt 7#8 false)) ∧
    ∃ t, step (given (.clock false true 0x10000#20) (runningAt 7#8 false)) = .next t ∧ t.run = true :=
  ⟨⟨by decide, by decide, by decide, by decide, by decide, by decide, by decide, by decide, by decide, by decide⟩,
    _, rfl, by decide⟩
theorem witness_StepRunsDecodedCommand : decode 0x2FF41#20 = .push 0x41#8 ∧ Instr.wellFormed (.push 0x41#8) = true ∧
    (given (.clock false true 0x2FF41#20) waiting).inputs = .clock false true 0x2FF41#20 :: [] := by decide
theorem witness_IdleCycleKeepsState :
    (given (.clock false false 0x10000#20) ready).inputs = .clock false false 0x10000#20 :: [] ∧ ready.inputs = [] := by
  decide
theorem witness_ResetEdgeSetsEveryRegister :
    (given (.clock true true 0x40032#20) pendingRun).inputs = .clock true true 0x40032#20 :: [] := by decide
/-- A cycle whose command raises both pulses, and a cycle that raises none. -/
theorem witness_PulsesLastOneCycle :
    (nextIsTimeUnit (given (.clock false true 0x50000#20) pendingRun) = false ∧
      ∃ t, step (given (.clock false true 0x50000#20) pendingRun) = .next t ∧ t.frameStbO = true ∧ t.tmrLoadO = true) ∧
    (∃ t, step { pendingRun with frameStbO := true, tmrLoadO := true } = .next t ∧ t.frameStbO = false ∧ t.tmrLoadO = false) :=
  ⟨⟨by decide, _, rfl, by decide⟩, ⟨_, rfl, by decide⟩⟩
theorem witness_StepKeepsInvariant : Inv (runningAt 7#8 false) ∧ ∃ t, step (runningAt 7#8 false) = .next t :=
  ⟨running_inv, _, rfl⟩
theorem witness_TickReadsWrittenSlot : Inv (runningAt 7#8 false) ∧ (runningAt 7#8 false).run = true :=
  ⟨running_inv, by decide⟩
/-- The ready state, and the same with stale frames above `len`, another stored clock bit and another `hold`. -/
theorem witness_StaleDataIsInvisible :
    Inv ready ∧ Inv { ready with fb := frames ([0x1F#5] ++ (encodeChallenge text1A2B).tail ++ [0x1E#5, 0x1C#5]), hold := 9#4 } ∧
    Alike ready { ready with fb := frames ([0x1F#5] ++ (encodeChallenge text1A2B).tail ++ [0x1E#5, 0x1C#5]), hold := 9#4 } ∧
    ∃ t, runSteps 1 ready = .next t :=
  ⟨ready_inv, ⟨by decide, by decide, by decide, by decide, by decide, by decide, by decide, by decide, by decide, by decide⟩,
    ⟨by decide, by decide, by decide, by decide⟩, _, rfl⟩
/-- A RECONF in mid-sequence, as in P3. -/
theorem witness_EmittedTraceOfRun : Inv ready ∧ ready.valid = true ∧ decode 0x40032#20 = .start 50#16 ∧
    ∀ w ∈ [0x50000#20, 0x60064#20, 0x50000#20, 0x50000#20], decode w ≠ .stop ∧ ∀ x, decode w ≠ .start x := by
  refine ⟨ready_inv, by decide, by decide, fun w hw => ?_⟩
  simp only [List.mem_cons, List.not_mem_nil, or_false] at hw
  rcases hw with rfl | rfl | rfl | rfl <;> exact ⟨by decide, fun x h => nomatch h⟩
theorem witness_CyclicCounter : Inv (runningAt 7#8 false) ∧ (∃ t, exec .tick (runningAt 7#8 false) = .next t) ∧
    (runningAt 7#8 false).run = true := ⟨running_inv, ⟨_, rfl⟩, by decide⟩
theorem witness_ReconfSkipsNothing : (runningAt 7#8 false).run = true ∧ (runningAt 7#8 false).pend = false ∧
    decode 0x60064#20 = .reconf 100#16 ∧ decode 0x50000#20 = .tick ∧ ∃ t, RunsWords [0x50000#20] (runningAt 7#8 false) t :=
  ⟨by decide, by decide, by decide, by decide, _, rfl⟩
theorem witness_ReconfBeforeEveryTickStarves : pendingRun.run = true ∧ decode 0x50000#20 = .tick := by decide
theorem witness_StopTearsDown : decode 0x70000#20 = .stop ∧
    ∀ w ∈ [0x50000#20, 0x60064#20], ∀ x, decode w ≠ .start x := by
  refine ⟨by decide, fun w hw x => ?_⟩
  simp only [List.mem_cons, List.not_mem_nil, or_false] at hw
  rcases hw with rfl | rfl <;> exact fun h => nomatch h
theorem witness_ArbiterOrders : (runningAt 0#8 true).run = true ∧ (runningAt 0#8 true).pend = false ∧
    decode 0x60064#20 = .reconf 100#16 ∧ decode 0x50000#20 = .tick := by decide

/-- A running core whose timer service has this state. -/
def timed (period tcnt : Interval) (due : Bool) (loadSeen : Option Interval) : State :=
  { runningAt 0#8 true with timer := { period := period, tcnt := tcnt, due := due, loadSeen := loadSeen } }

/-- A load, a count at 1, a count above 1, a cancelled timer, a load of 0. -/
theorem witness_TimeUnitFollowsReference :
    ((timed 3#16 1#16 true (some 5#16)).timer.loadSeen = some 5#16 ∧ 5#16 ≠ 0#16) ∧
    ((timed 3#16 1#16 false none).timer.loadSeen = none ∧ (timed 3#16 1#16 false none).run = true ∧
      (timed 3#16 1#16 false none).timer.tcnt = 1#16) ∧
    ((timed 3#16 2#16 false none).run = true ∧ (timed 3#16 2#16 false none).timer.tcnt ≠ 1#16) ∧
    (ready.timer.loadSeen = none ∧ ready.run = false) ∧
    (timed 3#16 1#16 false (some 0#16)).timer.loadSeen = some 0#16 ∧
    (given .timeUnit ready).inputs = .timeUnit :: [] := by decide
theorem witness_StepStopsOnlyOnPeriodZero :
    step (given .timeUnit (timed 3#16 1#16 false (some 0#16))) = .refused .timerPeriodZero := rfl
theorem witness_GrantDeliversDueTick :
    ((timed 3#16 3#16 true none).timer.due = true ∧ (timed 3#16 3#16 true none).run = true) ∧
    (timed 3#16 3#16 false none).timer.due = false ∧ ready.run = false ∧ (given .grant ready).inputs = .grant :: [] := by
  decide
/-- A STOP with a tick due drops it (R109 c). -/
theorem test_stop_drops_due : ∃ t, step (given (.clock false true 0x70000#20) (timed 3#16 3#16 true none)) = .next t ∧
    t.run = false ∧ t.timer.due = false := ⟨_, rfl, by decide⟩
theorem witness_NoTickIsDueWhileCancelled :
    (∃ t, step (given (.clock false true 0x70000#20) (timed 3#16 3#16 true none)) = .next t ∧ t.run = false) ∧
    ready.run = false ∧ (timed 3#16 3#16 true none).valid = true ∧ decode 0x70000#20 = .stop ∧
    decode 0x40032#20 = .start 50#16 := ⟨⟨_, rfl, by decide⟩, by decide⟩
/-- The shortest period and a longer one; `k` at both ends of its range. -/
theorem witness_TickFallsDueAfterPeriod :
    ((timed 1#16 1#16 false none).run = true ∧ (timed 1#16 1#16 false none).timer.loadSeen = none ∧
      (timed 1#16 1#16 false none).timer.due = false ∧
      (timed 1#16 1#16 false none).timer.tcnt = (timed 1#16 1#16 false none).timer.period ∧
      0 < (timed 1#16 1#16 false none).timer.period.toNat ∧ 1 ≤ (timed 1#16 1#16 false none).timer.period.toNat) ∧
    (0 < (timed 3#16 3#16 false none).timer.period.toNat ∧ 0 ≤ (timed 3#16 3#16 false none).timer.period.toNat ∧
      3 ≤ (timed 3#16 3#16 false none).timer.period.toNat) := by decide
/-- A command that loads, one that does not. -/
theorem witness_TimerSeesLoadsOnly :
    (∃ t, exec .tick { pendingRun with frameStbO := false, tmrLoadO := false } = .next t ∧ t.loads = [100#16]) ∧
    (∃ t, exec (.reconf 9#16) { pendingRun with frameStbO := false, tmrLoadO := false } = .next t ∧ t.loads = []) :=
  ⟨⟨_, rfl, by decide⟩, ⟨_, rfl, by decide⟩⟩
theorem witness_TimerKeepsCounting : TimerInv (given .timeUnit (timed 3#16 1#16 false none)) ∧
    TimerInv (given .timeUnit (timed 0#16 0#16 false (some 5#16))) ∧
    ∃ t, step (given .timeUnit (timed 3#16 1#16 false none)) = .next t ∧ t.timer.due = true :=
  ⟨fun _ => .inr (by decide), fun _ => .inl (by decide), _, rfl, by decide⟩

end Sys2Proof.Tests
end

section
/-! PROOF. The state's statements: the invariant of R24 and R122 (O37, O38), who writes what (O28, O29, O36), and the tables
of R22 and R28 (O34, O35). Each is read off `Effect` and `StepEffect`, so no command's meaning is unfolded here. -/

namespace Sys2Proof.Machine

/-! ### Three ways to have the invariant

A state is open (`ENC = 1`), or idle with the encode closed, or it keeps the encoder's registers of a state that has it. -/

/-- What an open encode asks for: the sequencer idle without a sequence, and the closed pairs in range and written. -/
theorem inv_of_open {t : State} (hwf : Memory.wf t.fb = true) (hrun : t.run = false)
    (hidle : t.idx = 0#8 ∧ t.phase = true) (hvalid : t.valid = false)
    (hcnt : 4 ≤ t.cnt.toNat ∧ t.cnt.toNat ≤ Config.nMax)
    (hpairs : ∀ j, j < t.cnt.toNat - t.cnt.toNat % 2 → (Memory.read? t.fb j).isSome = true) : Inv t where
  memWf := hwf
  openNotValid _ := hvalid
  runningValid h := by simp [hrun] at h
  lenInRange h := by simp [hvalid] at h
  idxInSequence h := by simp [hrun] at h
  cntInRange _ := hcnt
  idleAtStart _ := hidle
  validNoOverflow h := by simp [hvalid] at h
  sequenceWritten h := by simp [hvalid] at h
  pairsWritten _ := hpairs

/-- With the encode closed and the sequencer idle, only a valid sequence asks for anything. -/
theorem inv_of_closed {t : State} (hwf : Memory.wf t.fb = true) (hrun : t.run = false)
    (hidle : t.idx = 0#8 ∧ t.phase = true) (henc : t.enc = false)
    (hseq : t.valid = true → (4 ≤ t.len.toNat ∧ t.len.toNat ≤ Config.nMax) ∧ t.ovf = false ∧
      ∀ j, j < t.len.toNat → (Memory.read? t.fb j).isSome = true) : Inv t where
  memWf := hwf
  openNotValid h := by simp [henc] at h
  runningValid h := by simp [hrun] at h
  lenInRange h := (hseq h).1
  idxInSequence h := by simp [hrun] at h
  cntInRange h := by simp [henc] at h
  idleAtStart _ := hidle
  validNoOverflow h := (hseq h).2.1
  sequenceWritten h := (hseq h).2.2
  pairsWritten h := by simp [henc] at h

/-- The sequencer's commands keep the encoder's registers and lose no written slot: only the clauses about `RUN` and the
position are left to show. -/
theorem Inv.of_sequencer {s t : State} (h : Inv s) (hcnt : t.cnt = s.cnt) (hlen : t.len = s.len) (henc : t.enc = s.enc)
    (hvalid : t.valid = s.valid) (hovf : t.ovf = s.ovf) (hwf : Memory.wf t.fb = true)
    (hkept : ∀ j, (Memory.read? s.fb j).isSome = true → (Memory.read? t.fb j).isSome = true)
    (hrun : t.run = true → s.valid = true ∧ t.idx.toNat < s.len.toNat)
    (hidle : t.run = false → t.idx = 0#8 ∧ t.phase = true) : Inv t where
  memWf := hwf
  openNotValid := by simpa only [henc, hvalid] using h.openNotValid
  runningValid hr := by rw [hvalid]; exact (hrun hr).1
  lenInRange := by simpa only [hvalid, hlen] using h.lenInRange
  idxInSequence hr := by rw [hlen]; exact (hrun hr).2
  cntInRange := by simpa only [henc, hcnt] using h.cntInRange
  idleAtStart := hidle
  validNoOverflow := by simpa only [hvalid, hovf] using h.validNoOverflow
  sequenceWritten hv j hj := hkept j (h.sequenceWritten (hvalid ▸ hv) j (hlen ▸ hj))
  pairsWritten he j hj := hkept j (h.pairsWritten (henc ▸ he) j (hcnt ▸ hj))

theorem Inv.running {s : State} (h : Inv s) (hr : s.run = true) : s.valid = true ∧ s.idx.toNat < s.len.toNat :=
  ⟨h.runningValid hr, h.idxInSequence hr⟩

/-- I3: an open encode shuts out a running sequencer (R24). -/
theorem Inv.idle_of_open {s : State} (h : Inv s) (he : s.enc = true) : s.run = false := by
  have hv := h.openNotValid he
  cases hr : s.run
  · rfl
  · simp [h.runningValid hr] at hv

/-- A command that touches neither the encoder's registers, nor the buffer, nor `RUN` and the position. -/
theorem Inv.of_unread {s t : State} (h : Inv s) (hcnt : t.cnt = s.cnt) (hlen : t.len = s.len) (henc : t.enc = s.enc)
    (hvalid : t.valid = s.valid) (hovf : t.ovf = s.ovf) (hfb : t.fb = s.fb) (hrun : t.run = s.run)
    (hidx : t.idx = s.idx) (hphase : t.phase = s.phase) : Inv t :=
  h.of_sequencer hcnt hlen henc hvalid hovf (hfb ▸ h.memWf) (fun _ hj => hfb ▸ hj)
    (fun hr => hidx ▸ h.running (hrun ▸ hr)) (fun hr => hidx ▸ hphase ▸ h.idleAtStart (hrun ▸ hr))

theorem Inv.ignore {s : State} (h : Inv s) (m : Mark) : Inv (Machine.ignore m s) :=
  h.of_unread rfl rfl rfl rfl rfl rfl rfl rfl rfl

/-! ### Every command keeps the invariant -/

/-- A character is taken below `N_MAX` only, where the count does not wrap (R67). -/
theorem count_succ_toNat {n : Count} (h : n.toNat < 256) : (n + 1#9).toNat = n.toNat + 1 := by bv_omega

/-- CLR (R66): the preamble's two pairs are closed and written. -/
theorem Inv.clr {s : State} (h : Inv s) (hr : s.run = false) :
    Inv { writePreamble s with cnt := 4#9, enc := true, valid := false, ovf := false } := by
  refine inv_of_open (writePreamble_wf h.memWf) hr (h.idleAtStart hr) rfl
    (show 4 ≤ (4#9).toNat ∧ (4#9).toNat ≤ 256 by decide) fun j hj => ?_
  have hj4 : j < 4 := by simpa using hj
  rw [writePreamble_read?]
  split_ifs
  · rfl
  · rfl
  · rfl
  · rfl
  · omega

theorem Inv.pushFull {s : State} (h : Inv s) (he : s.enc = true) : Inv { s with ovf := true } :=
  have hr := h.idle_of_open he
  inv_of_open h.memWf hr (h.idleAtStart hr) (h.openNotValid he) (h.cntInRange he) (h.pairsWritten he)

/-- PUSH of a first of a pair (R67): one more character waits, and no pair is closed. -/
theorem Inv.pushOpens {s : State} (h : Inv s) (v : Nibble) (he : s.enc = true) (hn : s.cnt.toNat ≠ 256)
    (hc : s.cnt.toNat % 2 = 0) : Inv { s with hold := v, cnt := s.cnt + 1#9 } := by
  have hr := h.idle_of_open he
  obtain ⟨hlo, hhi⟩ : 4 ≤ s.cnt.toNat ∧ s.cnt.toNat ≤ 256 := h.cntInRange he
  have hsucc := count_succ_toNat (n := s.cnt) (by omega)
  refine inv_of_open h.memWf hr (h.idleAtStart hr) (h.openNotValid he) ?_ fun j hj => ?_
  · show 4 ≤ (s.cnt + 1#9).toNat ∧ (s.cnt + 1#9).toNat ≤ 256
    omega
  · refine h.pairsWritten he j ?_
    simp only [hsucc] at hj
    omega

/-- PUSH of the second of a pair (R33, R67): the two slots that become a closed pair are the two just written. -/
theorem Inv.pushCloses {s : State} (h : Inv s) (v : Nibble) (he : s.enc = true) (hc : s.cnt.toNat % 2 = 1) :
    Inv { writePair v s with cnt := s.cnt + 1#9 } := by
  have hr := h.idle_of_open he
  obtain ⟨hlo, hhi⟩ : 4 ≤ s.cnt.toNat ∧ s.cnt.toNat ≤ 256 := h.cntInRange he
  have hsucc := count_succ_toNat (n := s.cnt) (by omega)
  refine inv_of_open (writePair_wf h.memWf) hr (h.idleAtStart hr) (h.openNotValid he) ?_ fun j hj => ?_
  · show 4 ≤ (s.cnt + 1#9).toNat ∧ (s.cnt + 1#9).toNat ≤ 256
    omega
  · simp only [hsucc] at hj
    rw [writePair_read?, slotIndex_toNat_of_lt (by omega), slotIndex_pred_toNat (by omega) hhi]
    split_ifs
    · rfl
    · rfl
    · exact h.pairsWritten he j (by omega)

/-- FIN of an even count (R68): the closed pairs are the whole sequence. -/
theorem Inv.finEven {s : State} (h : Inv s) (he : s.enc = true) (hc : s.cnt.toNat % 2 = 0) :
    Inv { s with len := s.cnt, enc := false, valid := !s.ovf } := by
  have hr := h.idle_of_open he
  refine inv_of_closed h.memWf hr (h.idleAtStart hr) rfl fun hv => ⟨h.cntInRange he, by simpa using hv, fun j hj => ?_⟩
  have hj' : j < s.cnt.toNat := hj
  exact h.pairsWritten he j (by omega)

/-- FIN of an odd count (R35, R68): the closed pairs and the tail just written are the whole sequence. -/
theorem Inv.finOdd {s : State} (h : Inv s) (he : s.enc = true) (hc : s.cnt.toNat % 2 = 1) :
    Inv { writeOddTail s with len := s.cnt, enc := false, valid := !s.ovf } := by
  have hr := h.idle_of_open he
  have hrange : 4 ≤ s.cnt.toNat ∧ s.cnt.toNat ≤ 256 := h.cntInRange he
  refine inv_of_closed (writeOddTail_wf h.memWf) hr (h.idleAtStart hr) rfl
    fun hv => ⟨hrange, by simpa using hv, fun j hj => ?_⟩
  have hj' : j < s.cnt.toNat := hj
  rw [writeOddTail_read?, slotIndex_pred_toNat (by omega) hrange.2]
  split_ifs
  · rfl
  · exact h.pairsWritten he j (by omega)

/-- START (R80): slot 0 lies in every valid sequence. -/
theorem Inv.start {s : State} (h : Inv s) (v : Interval) (hv : s.valid = true) :
    Inv (timerLoad v { rewind s with tickInterval := v, pend := false, run := true }) := by
  obtain ⟨hlo, -⟩ := h.lenInRange hv
  exact h.of_sequencer rfl rfl rfl rfl rfl h.memWf (fun _ hj => hj) (fun _ => ⟨hv, by simp; omega⟩) (fun hr => by simp at hr)

/-- The position a normal TICK steps to is inside the sequence (R82, R88). -/
theorem Inv.normalTick_idx_lt {s : State} (h : Inv s) (hr : s.run = true) :
    (normalTick s).idx.toNat < s.len.toNat := by
  obtain ⟨hv, hidx⟩ := h.running hr
  rw [normalTick_idx]
  split
  · exact hidx
  · rw [nextIdx_toNat hidx (h.lenInRange hv).2]
    split <;> omega

/-- A normal TICK (R82) writes a slot, which loses none, and steps inside the sequence. -/
theorem Inv.normalTick {s : State} (h : Inv s) (hr : s.run = true) : Inv (Machine.normalTick s) := by
  have hrun : (Machine.normalTick s).run = true := by rw [normalTick_eq]; exact hr
  refine h.of_sequencer ?_ ?_ ?_ ?_ ?_ ?_ (fun j hj => ?_) (fun _ => ⟨h.runningValid hr, h.normalTick_idx_lt hr⟩)
    (fun hf => by simp [hrun] at hf)
  iterate 5 rw [normalTick_eq]
  · rw [normalTick_fb]; exact Memory.wf_write (slotIndex_lt _) h.memWf
  · rw [normalTick_fb]; exact Memory.isSome_write hj

theorem Inv.pendingTick {s : State} (h : Inv s) : Inv (Machine.pendingTick s) :=
  h.of_unread rfl rfl rfl rfl rfl rfl rfl rfl rfl

theorem Inv.stop {s : State} (h : Inv s) : Inv { rewind s with run := false, pend := false } :=
  h.of_sequencer rfl rfl rfl rfl rfl h.memWf (fun _ hj => hj) (fun hr => by simp at hr) (fun _ => ⟨rfl, rfl⟩)

/-- Whatever a command does, it keeps the invariant (R24). -/
theorem Effect.keeps_inv {s t : State} {i : Instr} (he : Effect s i t) (h : Inv s) : Inv t := by
  cases he with
  | ignored i m _ => exact h.ignore m
  | reserved i _ => exact h.ignore .reservedOpcode
  | nop => exact h
  | clr hr => exact h.clr hr
  | pushFull c he _ => exact h.pushFull he
  | pushOpens c he hn hc => exact h.pushOpens _ he hn hc
  | pushCloses c he hc => exact h.pushCloses _ he hc
  | finEven he hc => exact h.finEven he hc
  | finOdd he hc => exact h.finOdd he hc
  | start v hv => exact h.start v hv
  | tickNormal hr _ => exact h.normalTick hr
  | tickPending _ _ => exact h.pendingTick
  | reconf v => exact h.of_unread rfl rfl rfl rfl rfl rfl rfl rfl rfl
  | stop => exact h.stop

/-- A reset edge keeps the buffer and leaves an idle core without a sequence (R28, R120). -/
theorem inv_resetEdge {s : State} (h : Memory.wf s.fb = true) : Inv (resetEdge s) :=
  inv_of_closed h rfl ⟨rfl, rfl⟩ rfl (fun hv => by simp at hv)

/-- Settles O37: a command keeps the invariant, and what the edge does around it is not read by it. -/
theorem stepKeepsInvariant : Obligations.StepKeepsInvariant := by
  intro s t h hst
  cases effect_of_step hst with
  | command i s1 u due ins _ _ _ h1 he =>
    subst h1
    have hu : Inv u := he.keeps_inv (inv_of_edge h _ ins false false)
    rw [timerSees_frame]
    exact inv_of_edge hu _ u.inputs u.frameStbO u.tmrLoadO
  | idle ins due => exact inv_of_edge h _ ins false false
  | timeUnit ins t _ _ _ ht =>
    rw [timeUnitPasses_frame ht]
    exact inv_of_edge h t.timer ins s.frameStbO s.tmrLoadO
  | reset ins => exact inv_resetEdge h.memWf

/-- Settles O38: nothing is written, nothing open, nothing valid. -/
theorem resetSatisfiesInvariant : Obligations.ResetSatisfiesInvariant :=
  inv_of_closed Memory.wf_empty rfl ⟨rfl, rfl⟩ rfl (fun hv => by simp [State.reset] at hv)

/-! ### What a command emits and pulses -/

/-- R23: a TICK that runs appends the new `frame_o` to the trace, and every other effect keeps both. -/
theorem Effect.trace_cases {s t : State} {i : Instr} (h : Effect s i t) :
    (i = .tick ∧ s.run = true ∧ ∃ b, t.trace = s.trace ++ [{ frame := t.frameO, steady := b }]) ∨
    (t.trace = s.trace ∧ t.frameO = s.frameO) := by
  cases h with
  | tickNormal hr _ => exact .inl ⟨rfl, hr, true, by simp⟩
  | tickPending hr _ => exact .inl ⟨rfl, hr, false, rfl⟩
  | _ => exact .inr ⟨rfl, rfl⟩

/-- Settles O28, by the effects of a step. -/
theorem onlyRunningTicksEmit : Obligations.OnlyRunningTicksEmit := by
  intro s t hst
  cases effect_of_step hst with
  | command i s1 u due ins hc _ _ h1 he =>
    subst h1
    rcases he.trace_cases with ⟨rfl, hr, hb⟩ | ⟨htrace, hframe⟩
    · exact .inl ⟨hc, hr, hb⟩
    · exact .inr ⟨htrace, .inl hframe⟩
  | idle => exact .inr ⟨rfl, .inl rfl⟩
  | timeUnit ins t _ _ _ ht =>
    rw [timeUnitPasses_frame ht]
    exact .inr ⟨rfl, .inl rfl⟩
  | reset ins _ hr => exact .inr ⟨rfl, .inr ⟨hr, rfl⟩⟩

/-- The commands that pulse nothing: no running TICK and no accepted START is among the ignored ones. -/
theorem no_pulse_of_not_accepted {s : State} {i : Instr} (h : accepted i s = false) :
    ¬ (i = .tick ∧ s.run = true) ∧ ¬ (∃ v, i = .start v ∧ s.valid = true) := by
  constructor
  · rintro ⟨rfl, hr⟩; simp [accepted, hr] at h
  · rintro ⟨v, rfl, hv⟩; simp [accepted, hv] at h

theorem no_pulse_of_reserved {i : Instr} (h : isReserved i = true) : i ≠ .tick ∧ ∀ v, i ≠ .start v := by
  constructor
  · rintro rfl; simp [isReserved, Instr.opcode] at h
  · rintro v rfl; simp [isReserved, Instr.opcode] at h

/-- `frame_stb_o` rises with a TICK that runs and no other command (R22). -/
theorem Effect.frameStbO_iff {s t : State} {i : Instr} (h : Effect s i t) (h0 : s.frameStbO = false) :
    t.frameStbO = true ↔ i = .tick ∧ s.run = true := by
  cases h with
  | ignored i m ha => simp [h0, (no_pulse_of_not_accepted ha).1]
  | reserved i hi => simp [h0, (no_pulse_of_reserved hi).1]
  | tickNormal hr _ => simp [hr]
  | tickPending hr _ => simp [hr, Machine.pendingTick]
  | _ => simp [h0]

/-- `tmr_load_o` rises with an accepted START or a pending TICK and no other command (R22). -/
theorem Effect.tmrLoadO_iff {s t : State} {i : Instr} (h : Effect s i t) (h0 : s.tmrLoadO = false) :
    t.tmrLoadO = true ↔ (∃ v, i = .start v ∧ s.valid = true) ∨ (i = .tick ∧ s.run = true ∧ s.pend = true) := by
  cases h with
  | ignored i m ha =>
    obtain ⟨htick, hstart⟩ := no_pulse_of_not_accepted ha
    simp only [ignore_tmrLoadO, h0, hstart, false_or, Bool.false_eq_true, false_iff]
    exact fun ⟨hi, hr, _⟩ => htick ⟨hi, hr⟩
  | reserved i hi =>
    obtain ⟨htick, hstart⟩ := no_pulse_of_reserved hi
    simp [h0, htick, hstart]
  | start v hv => simp [hv]
  | tickNormal hr hp => simp [normalTick_eq, h0, hp]
  | tickPending hr hp => simp [Machine.pendingTick, hr, hp]
  | _ => simp [h0]

/-- Settles O36: the edge takes the pulses down before the command, and only its effect raises them. -/
theorem pulsesLastOneCycle : Obligations.PulsesLastOneCycle := by
  intro s t htu hst
  cases effect_of_step hst with
  | command i s1 u due ins hc _ _ h1 he =>
    subst h1
    simp only [hc, Option.some.injEq]
    exact ⟨he.frameStbO_iff rfl, he.tmrLoadO_iff rfl⟩
  | idle ins due hc => simp [hc]
  | timeUnit ins t _ _ ht => simp [ht] at htu
  | reset ins hc => simp [hc]

/-! ### Who may write which register (R29), one lemma per group -/

section Writers
variable {s t : State} {i : Instr}

theorem Effect.position_writer (h : Effect s i t) (hne : t.idx ≠ s.idx ∨ t.phase ≠ s.phase) :
    (∃ v, i = .start v) ∨ i = .tick ∨ i = .stop := by
  cases h with
  | start v _ => exact .inl ⟨v, rfl⟩
  | tickNormal _ _ => exact .inr (.inl rfl)
  | stop => exact .inr (.inr rfl)
  | _ => simp [Machine.pendingTick] at hne

theorem Effect.tickInterval_writer (h : Effect s i t) (hne : t.tickInterval ≠ s.tickInterval) :
    (∃ v, i = .start v) ∨ (∃ v, i = .reconf v) := by
  cases h with
  | start v _ => exact .inl ⟨v, rfl⟩
  | reconf v => exact .inr ⟨v, rfl⟩
  | _ => simp [Machine.pendingTick, Machine.normalTick] at hne

theorem Effect.pend_writer (h : Effect s i t) (hne : t.pend ≠ s.pend) :
    (∃ v, i = .reconf v) ∨ i = .tick ∨ (∃ v, i = .start v) ∨ i = .stop := by
  cases h with
  | reconf v => exact .inl ⟨v, rfl⟩
  | tickPending _ _ => exact .inr (.inl rfl)
  | start v _ => exact .inr (.inr (.inl ⟨v, rfl⟩))
  | stop => exact .inr (.inr (.inr rfl))
  | _ => simp [Machine.normalTick] at hne

theorem Effect.run_writer (h : Effect s i t) (hne : t.run ≠ s.run) : (∃ v, i = .start v) ∨ i = .stop := by
  cases h with
  | start v _ => exact .inl ⟨v, rfl⟩
  | stop => exact .inr rfl
  | _ => simp [Machine.pendingTick, Machine.normalTick] at hne

/-- A normal TICK writes the buffer too, but its data positions stay (R26). -/
theorem Effect.encoder_writer (h : Effect s i t)
    (hne : t.cnt ≠ s.cnt ∨ t.hold ≠ s.hold ∨ t.len ≠ s.len ∨ t.enc ≠ s.enc ∨ t.valid ≠ s.valid ∨ t.ovf ≠ s.ovf ∨
      ∃ j, dataBits (slotAt t.fb j) ≠ dataBits (slotAt s.fb j)) : isEncoderCommand i = true := by
  cases h with
  | clr | pushFull | pushOpens | pushCloses | finEven | finOdd => rfl
  | tickNormal _ _ => simp only [dataBits_slotAt_normalTick] at hne; simp [normalTick_eq] at hne
  | _ => simp [Machine.pendingTick] at hne

end Writers

/-- Settles O29: a step that is no reset edge and runs no command keeps all these registers, and a command writes its
own. -/
theorem ownershipOfState : Obligations.OwnershipOfState := by
  intro s t hst hreset
  cases effect_of_step hst with
  | command i s1 u due ins hc _ _ h1 he =>
    subst h1
    simp only [hc, Option.some.injEq]
    exact ⟨he.position_writer, he.tickInterval_writer, he.pend_writer, he.run_writer,
      fun hne => ⟨i, rfl, he.encoder_writer hne⟩⟩
  | idle => simp
  | timeUnit ins t _ _ _ ht =>
    rw [timeUnitPasses_frame ht]
    simp
  | reset ins _ hr => simp [hr] at hreset

/-! ### The tables of R22 and R28 -/

/-- Settles O34. -/
theorem resetStateValues : Obligations.ResetStateValues := by
  unfold Obligations.ResetStateValues
  decide

/-- Bit `k` of `status_o` falls into the `k`-th one-bit piece from the right (R22). -/
theorem statusO_getLsbD (s : State) (k : Nat) :
    s.statusO.getLsbD k =
      if k = 0 then s.enc else if k = 1 then s.valid else if k = 2 then s.run else if k = 3 then s.pend
      else decide (k = 4) && s.ovf := by
  simp only [State.statusO, BitVec.getLsbD_append, BitVec.getLsbD_ofBool]
  match k with
  | 0 | 1 | 2 | 3 => simp
  | k + 4 => simp

/-- Settles O35. -/
theorem statusAndOutputPorts : Obligations.StatusAndOutputPorts := by
  intro s
  simp only [statusO_getLsbD]
  exact ⟨rfl, rfl, rfl, rfl, rfl, rfl, rfl, rfl⟩

end Sys2Proof.Machine
end

section
/-! PROOF. The frame buffer's statements: a running sequence is not modified (O30), and the slots of a pair are inside
the buffer (O14). -/

namespace Sys2Proof.Machine

/-- I3 from the running side: every effect of PUSH and FIN asks for an open encode, which a running sequencer shuts out
(R24). -/
theorem Inv.closed_of_running {s : State} (h : Inv s) (hr : s.run = true) : s.enc = false := by
  by_contra he
  simp [h.idle_of_open (by simpa using he)] at hr

/-- R43, R65: with `RUN = 1` no command touches the sequence. The effects of CLR, PUSH and FIN need `RUN = 0` or an open
encode, and a normal TICK writes a clock bit only (R26). -/
theorem Effect.keeps_running_sequence {s t : State} {i : Instr} (he : Effect s i t) (h : Inv s) (hr : s.run = true) :
    t.len = s.len ∧ t.valid = s.valid ∧ ∀ j, dataBits (slotAt t.fb j) = dataBits (slotAt s.fb j) := by
  have hclosed := h.closed_of_running hr
  cases he with
  | clr hidle => simp [hr] at hidle
  | pushFull _ hopen | pushOpens _ hopen | pushCloses _ hopen | finEven hopen | finOdd hopen => simp [hclosed] at hopen
  | tickNormal _ _ => exact ⟨by simp [normalTick_eq], by simp [normalTick_eq], dataBits_slotAt_normalTick s⟩
  | _ => exact ⟨rfl, rfl, fun _ => rfl⟩

/-- Settles O30: a command keeps the running sequence, the edge around it does not touch it, and a reset edge ends the
run. -/
theorem runningSequenceIsNotModified : Obligations.RunningSequenceIsNotModified := by
  intro s t h hr hst hrt
  have hv := h.runningValid hr
  cases effect_of_step hst with
  | command i s1 u due ins _ _ _ h1 he =>
    subst h1
    obtain ⟨hlen, hvalid, hdata⟩ := he.keeps_running_sequence (inv_of_edge h _ ins false false) hr
    exact ⟨hlen, hvalid.trans hv, hdata⟩
  | idle => exact ⟨rfl, hv, fun _ => rfl⟩
  | timeUnit ins t _ _ _ ht =>
    rw [timeUnitPasses_frame ht]
    exact ⟨rfl, hv, fun _ => rfl⟩
  | reset ins => simp at hrt

/-- Settles O14: an odd count in I6's range is below `N_MAX`, so neither index loses its top bit. -/
theorem pairSlotsAreInsideTheBuffer : Obligations.PairSlotsAreInsideTheBuffer := by
  intro s h henc hodd
  obtain ⟨hlo, hhi⟩ : 4 ≤ s.cnt.toNat ∧ s.cnt.toNat ≤ 256 := h.cntInRange henc
  have hlt : s.cnt.toNat < 256 := by omega
  exact ⟨slotIndex_pred_toNat (by omega) hhi, slotIndex_toNat_of_lt hlt, hlt⟩

end Sys2Proof.Machine
end

section
/-! PROOF. The encoding's statements: decoder, encoder and assembler (O1 to O6), the reserved opcodes (O24), and
the edge that carries a command word or none (O31, O32). What a word decodes to is read off `decode_of_fields` and
`fields_of_decode`, so the decoder's rows are gone through once in each direction. -/

namespace Sys2Proof

/-! ### A command and the words that decode to it -/

/-- The operand bits of the word, as the command's form reads them, are the command's operand; a command without an
operand asks for nothing (R46). -/
def Instr.ReadsOperand : Instr → Command → Prop
  | .push c, w => chrField w = c
  | .start v, w | .reconf v, w => argField w = v
  | _, _ => True

/-- R45 to R47: a word that carries a command's opcode and operand decodes to that command. -/
theorem decode_of_fields {w : Command} {i : Instr} (hop : opField w = i.opcode) (harg : i.ReadsOperand w) :
    decode w = i := by
  cases i with
  | push c =>
    obtain rfl : chrField w = c := harg
    exact decode_of_opField w 0x2#4 hop
  | start v =>
    obtain rfl : argField w = v := harg
    exact decode_of_opField w 0x4#4 hop
  | reconf v =>
    obtain rfl : argField w = v := harg
    exact decode_of_opField w 0x6#4 hop
  | _ => exact decode_of_opField w _ hop

/-- The opcode map (R47) at a word: each row's command, with the operand the row would read from the word. -/
def opcodeRows (w : Command) : List Instr :=
  [.nop, .clr, .push (chrField w), .fin, .start (argField w), .tick, .reconf (argField w), .stop, .reserved8,
    .reserved9, .reservedA, .reservedB, .reservedC, .reservedD, .reservedE, .reservedF]

/-- All sixteen opcodes have a row (R48). -/
theorem opcode_mem_opcodeRows (w : Command) (op : BitVec 4) : op ∈ (opcodeRows w).map Instr.opcode := by
  simp only [opcodeRows, List.map, Instr.opcode]
  revert op
  decide

theorem readsOperand_of_mem_opcodeRows {w : Command} {i : Instr} (h : i ∈ opcodeRows w) : i.ReadsOperand w := by
  revert i
  simp [opcodeRows, Instr.ReadsOperand]

/-- The converse of `decode_of_fields`: the word carries the opcode and the operand of what it decodes to. -/
theorem fields_of_decode (w : Command) : opField w = (decode w).opcode ∧ (decode w).ReadsOperand w := by
  obtain ⟨i, hrow, hop⟩ := List.mem_map.mp (opcode_mem_opcodeRows w (opField w))
  have harg := readsOperand_of_mem_opcodeRows hrow
  rw [decode_of_fields hop.symm harg]
  exact ⟨hop.symm, harg⟩

theorem readsOperand_encode (i : Instr) : i.ReadsOperand (encode i) := by
  cases i with
  | push c => exact chrField_encode_push c
  | start v => exact argField_encode_start v
  | reconf v => exact argField_encode_reconf v
  | _ => trivial

/-- Settles O1: the word of a command carries its opcode and its operand. -/
theorem decodeOfEncode : Obligations.DecodeOfEncode :=
  fun i _ => decode_of_fields (opField_encode i) (readsOperand_encode i)

/-! ### The opcode map by match and mask (R47) -/

/-- The mask of the opcode map keeps the opcode and clears the 16 operand bits. -/
theorem and_opcodeMask (w : Command) : w &&& 0xF0000#20 = opField w ++ 0#16 := by
  have hmask : 0xF0000#20 = 15#4 ++ 0#16 := rfl
  have hword : opField w ++ argField w = w := BitVec.extractLsb'_append_extractLsb'
  calc w &&& 0xF0000#20 = (opField w ++ argField w) &&& (15#4 ++ 0#16) := by rw [hword, hmask]
    _ = (opField w &&& 15#4) ++ (argField w &&& 0#16) := BitVec.and_append
    _ = opField w ++ 0#16 := by rw [BitVec.and_zero, show 15#4 = BitVec.allOnes 4 from rfl, BitVec.and_allOnes]

/-- The operand of PUSH is the word cut to its low 8 bits (R46). -/
theorem chrField_eq_setWidth (w : Command) : chrField w = w.setWidth 8 := by
  apply BitVec.eq_of_toNat_eq
  rw [chrField_toNat, BitVec.toNat_setWidth]

/-- The operand of START and RECONF is the word cut to its low 16 bits (R46). -/
theorem argField_eq_setWidth (w : Command) : argField w = w.setWidth 16 := by
  apply BitVec.eq_of_toNat_eq
  rw [argField_toNat, BitVec.toNat_setWidth]

/-- Settles O2: the row of a word is that of the command it decodes to. -/
theorem decodeFollowsOpcodeMap : Obligations.DecodeFollowsOpcodeMap := by
  intro w
  obtain ⟨hop, harg⟩ := fields_of_decode w
  rw [and_opcodeMask, hop]
  generalize decode w = i at harg ⊢
  cases i with
  | push c =>
    obtain rfl : chrField w = c := harg
    simp [Instr.opcode, chrField_eq_setWidth]
  | start v =>
    obtain rfl : argField w = v := harg
    simp [Instr.opcode, argField_eq_setWidth]
  | reconf v =>
    obtain rfl : argField w = v := harg
    simp [Instr.opcode, argField_eq_setWidth]
  | _ => simp [Instr.opcode]

/-! ### Ignored operand bits (R46) -/

theorem chrField_eq_of_mod {w w' : Command} (h : w.toNat % 2 ^ 8 = w'.toNat % 2 ^ 8) : chrField w = chrField w' := by
  apply BitVec.eq_of_toNat_eq
  rw [chrField_toNat, chrField_toNat, h]

theorem argField_eq_of_mod {w w' : Command} (h : w.toNat % 2 ^ 16 = w'.toNat % 2 ^ 16) : argField w = argField w' := by
  apply BitVec.eq_of_toNat_eq
  rw [argField_toNat, argField_toNat, h]

/-- Settles O3: a word decodes to the command of another if it carries that command's opcode and operand. -/
theorem onlyOperandBitsMatter : Obligations.OnlyOperandBitsMatter := by
  refine ⟨fun w w' hop hchr hivl => ?_,
    fun w hop => ⟨chrField w, decode_of_fields hop rfl, chrField_toNat w⟩,
    fun w hop => ⟨argField w, decode_of_fields hop rfl, argField_toNat w⟩,
    fun w hop => ⟨argField w, decode_of_fields hop rfl, argField_toNat w⟩⟩
  obtain ⟨hop', harg'⟩ := fields_of_decode w'
  refine decode_of_fields (hop.trans hop') ?_
  rw [hop'] at hop
  generalize decode w' = i at hop harg' ⊢
  cases i with
  | push c =>
    exact (chrField_eq_of_mod (hchr hop)).trans harg'
  | start v =>
    exact (argField_eq_of_mod (hivl (.inl hop))).trans harg'
  | reconf v =>
    exact (argField_eq_of_mod (hivl (.inr hop))).trans harg'
  | _ => trivial

/-! ### The assembler (R51, R52) -/

/-- The word of a command as a plain number: the opcode above the 16 operand bits (R45). -/
theorem encode_toNat (i : Instr) : (encode i).toNat = i.opcode.toNat * 2 ^ 16 + i.operandBits.toNat := by
  rw [encode, BitVec.toNat_append, ← Nat.shiftLeft_add_eq_or_of_lt i.operandBits.isLt, Nat.shiftLeft_eq]

theorem operandBits_push_toNat (c : CharCode) : (Instr.push c).operandBits.toNat = c.toNat := by
  rw [Instr.operandBits, BitVec.toNat_append]
  simp

/-- Settles O4: five fixed words, and three whose operand is added below the opcode. -/
theorem assemblerWords : Obligations.AssemblerWords := by
  refine ⟨rfl, rfl, rfl, rfl, rfl, fun c => ?_, fun v => ?_, fun v => ?_⟩
  · simp [encode_toNat, operandBits_push_toNat, Instr.opcode]
  · simp [encode_toNat, Instr.operandBits, Instr.opcode]
  · simp [encode_toNat, Instr.operandBits, Instr.opcode]

/-- Settles O5. -/
theorem pseudoInstructionsExpand : Obligations.PseudoInstructionsExpand := by
  refine ⟨fun text => ⟨rfl, ?_⟩, rfl, fun k => rfl⟩
  simp [AsmLine.expand]

/-- Settles O6, by running the decoder on the ten words. -/
theorem writtenOutWordsDecode : Obligations.WrittenOutWordsDecode := by
  unfold Obligations.WrittenOutWordsDecode
  decide

end Sys2Proof

namespace Sys2Proof.Machine

/-! ### The reserved opcodes and the command port -/

/-- Settles O24. -/
theorem reservedExecutesAsNop : Obligations.ReservedExecutesAsNop := by
  intro s i hi
  obtain ⟨h8, h9, hA, hB, hC, hD, hE, hF⟩ := exec_reserved s
  simp only [List.mem_cons, List.not_mem_nil, or_false] at hi
  rcases hi with rfl | rfl | rfl | rfl | rfl | rfl | rfl | rfl
  exacts [h8, h9, hA, hB, hC, hD, hE, hF]

/-- Settles O31: the edge that takes the word is the command edge of its command. -/
theorem stepRunsDecodedCommand : Obligations.StepRunsDecodedCommand := by
  intro s w rest i hdec _ hin
  have hedge : step s = commandEdge i { s with inputs := rest } := by
    rw [step_input hin, takeInput_command, hdec]
  exact hedge

/-- Settles O32: both cycles are the idle edge. -/
theorem idleCycleKeepsState : Obligations.IdleCycleKeepsState := by
  constructor
  · intro s w rest hin
    rw [step_input hin, takeInput_idle, idleEdge_eq]
  · intro s hin
    rw [step_empty hin, idleEdge_eq]

end Sys2Proof.Machine
end

section
/-! PROOF. The pure functions of the encoder: the hex-digit mapping (O7), the lookup table (O8) and `encode` (O9, O10).
`getElem?_swapPairs` says once which frame stands at an index, and `swapPairs_eq_swapPairs_iff` which nibbles a list of
frames tells apart. -/

namespace Sys2Proof.Machine

/-! ### The hex-digit mapping (R60) -/

/-- One digit range of R60: a code less than 16 codes above the first of its range is cut to 4 bits without loss. -/
theorem digit_toNat {c lo base : CharCode} (hlo : lo.toNat ≤ c.toNat) (h : c.toNat - lo.toNat + base.toNat < 16) :
    ((c - lo + base).setWidth 4).toNat = c.toNat - lo.toNat + base.toNat := by
  rw [BitVec.toNat_setWidth, BitVec.toNat_add, BitVec.toNat_sub_of_le (BitVec.le_def.mpr hlo)]
  omega

/-- Settles O7, range by range. -/
theorem nibbleIsHexDigitValue : Obligations.NibbleIsHexDigitValue := by
  intro c
  simp only [nibble, BitVec.le_def, BitVec.toNat_ofNat, Nat.reducePow, Nat.reduceMod]
  split_ifs with hdecimal hupper hlower
  · simpa using digit_toNat (lo := 0x30#8) (base := 0#8) hdecimal.1 (by simp; omega)
  · exact digit_toNat hupper.1 (by simp; omega)
  · exact digit_toNat hlower.1 (by simp; omega)
  · rfl

/-! ### The lookup table (R61) -/

/-- Position 0 of a row is the clock bit, and position `k + 1` carries bit `k` of the nibble. -/
theorem lut_getLsbD_zero (v : Nibble) : (lut v).getLsbD 0 = false := clockBit_lut v

theorem lut_getLsbD_succ (v : Nibble) (k : Nat) : (lut v).getLsbD (k + 1) = v.getLsbD k := by
  have happend := BitVec.getLsbD_append (x := v) (y := BitVec.ofBool false) (i := k + 1)
  exact happend.trans (by simp)

theorem lut_toNat (v : Nibble) : (lut v).toNat = 2 * v.toNat := by
  have happend := BitVec.toNat_append v (BitVec.ofBool false)
  exact happend.trans (by simp [Nat.shiftLeft_eq, Nat.mul_comm])

/-- Settles O8. -/
theorem lutRowIsLsbFirst : Obligations.LutRowIsLsbFirst :=
  ⟨fun v => ⟨lut_getLsbD_zero v, lut_getLsbD_succ v 0, lut_getLsbD_succ v 1, lut_getLsbD_succ v 2,
    lut_getLsbD_succ v 3, lut_toNat v⟩, fun _ _ => lut_injective⟩

/-! ### `encode`, frame by frame (R63) -/

theorem xor_one_eq (j : Nat) : j ^^^ 1 = if j % 2 = 0 then j + 1 else j - 1 := by
  split
  · next h => exact Nat.xor_one_of_even (Nat.even_iff.mpr h)
  · next h => exact Nat.xor_one_of_odd (Nat.odd_iff.mpr (by omega))

/-- The next pair has its partners two places on. -/
theorem add_two_xor_one (j : Nat) : (j + 2) ^^^ 1 = (j ^^^ 1) + 2 := by
  rw [xor_one_eq, xor_one_eq]
  split_ifs <;> omega

/-- The frame at an index is the row of the partner's nibble, or zeros where there is no partner. -/
theorem getElem?_swapPairs {l : List Nibble} {j : Nat} (hj : j < l.length) :
    (swapPairs l)[j]? = some (l[j ^^^ 1]?.elim 0#5 lut) := by
  induction l using swapPairs.induct generalizing j with
  | case1 a b rest ih =>
    match j with
    | 0 => rfl
    | 1 => rfl
    | j + 2 => simpa [add_two_xor_one] using ih (by simpa using hj)
  | case2 a =>
    obtain rfl : j = 0 := by simpa using hj
    rfl
  | case3 => simp at hj

theorem encodeChallenge_length (s : List CharCode) : (encodeChallenge s).length = (code s).length := by
  simp [encodeChallenge]

theorem getElem?_encodeChallenge {s : List CharCode} {j : Nat} (hj : j < (code s).length) :
    (encodeChallenge s)[j]? = some ((code s)[j ^^^ 1]?.elim 0#5 fun c => lut (nibble c)) := by
  rw [encodeChallenge, getElem?_swapPairs (by simpa using hj), List.getElem?_map, Option.elim_map]
  rfl

/-- Settles O9, by the partner's index. -/
theorem encodeSwapsPairs : Obligations.EncodeSwapsPairs := by
  refine fun s => ⟨(encodeChallenge_length s).trans (code_length s), fun j hj => ?_⟩
  rw [getElem?_encodeChallenge (by rwa [code_length])]
  cases (code s)[j ^^^ 1]? <;> rfl

/-! ### The properties of `encode` (R64) -/

/-- In a pair that is there, the second character's nibble stands first. -/
theorem dataBits_encodeChallenge_pair {s : List CharCode} {i : Nat} {a b : CharCode} (heven : i % 2 = 0)
    (ha : (code s)[i]? = some a) (hb : (code s)[i + 1]? = some b) :
    (encodeChallenge s)[i]?.map dataBits = some (nibble b) ∧
      (encodeChallenge s)[i + 1]?.map dataBits = some (nibble a) := by
  have hlen : i + 1 < (code s).length := (List.getElem?_eq_some_iff.mp hb).1
  have hfirst : i ^^^ 1 = i + 1 := by rw [xor_one_eq, if_pos heven]
  have hsecond : (i + 1) ^^^ 1 = i := by rw [xor_one_eq, if_neg (by omega)]; rfl
  rw [getElem?_encodeChallenge (by omega), getElem?_encodeChallenge hlen, hfirst, hsecond, ha, hb]
  simp

/-- The frames tell apart the nibbles of the pairs; an odd last nibble leaves no trace in them. -/
theorem swapPairs_eq_swapPairs_iff {l l' : List Nibble} (h : l.length = l'.length) :
    swapPairs l = swapPairs l' ↔ l.take (l.length / 2 * 2) = l'.take (l.length / 2 * 2) := by
  induction l using swapPairs.induct generalizing l' with
  | case1 a b rest ih =>
    obtain ⟨a', b', rest', rfl⟩ : ∃ a' b' rest', l' = a' :: b' :: rest' := by
      match l', h with
      | a' :: b' :: rest', _ => exact ⟨a', b', rest', rfl⟩
    have hrest := ih (l' := rest') (by simpa using h)
    have hlut : ∀ v w, lut v = lut w ↔ v = w := fun _ _ => ⟨lut_injective, congrArg lut⟩
    have htake : (rest.length + 1 + 1) / 2 * 2 = rest.length / 2 * 2 + 1 + 1 := by omega
    simp only [swapPairs_cons_cons, List.length_cons, htake, List.take_succ_cons, List.cons.injEq, hlut, hrest]
    tauto
  | case2 a =>
    obtain ⟨a', rfl⟩ := List.length_eq_one_iff.mp h.symm
    simp
  | case3 =>
    obtain rfl := List.length_eq_zero_iff.mp h.symm
    simp

/-- The preamble is common to all, so `encode` tells strings of one length apart by the nibbles of their own pairs. -/
theorem encodeChallenge_eq_iff {s s' : List CharCode} (h : s.length = s'.length) :
    encodeChallenge s = encodeChallenge s' ↔
      (s.take (s.length / 2 * 2)).map nibble = (s'.take (s.length / 2 * 2)).map nibble := by
  unfold encodeChallenge
  rw [code_map_nibble, code_map_nibble]
  simp only [List.cons_append, List.nil_append, swapPairs_cons_cons, List.cons.injEq, true_and]
  rw [swapPairs_eq_swapPairs_iff (by simpa using h), List.length_map, List.map_take, List.map_take]

/-- Settles O10. -/
theorem encodeProperties : Obligations.EncodeProperties := by
  refine ⟨encodeChallenge_length, fun v k _ => lut_getLsbD_succ v k,
    fun s i a b => dataBits_encodeChallenge_pair, fun s => ?_, fun s s' hlen heven => ?_, fun s s' hlen hodd => ?_⟩
  · rw [encodeChallenge, code_map_nibble]
    rfl
  · rw [encodeChallenge_eq_iff hlen, Nat.div_mul_cancel (Nat.dvd_of_mod_eq_zero heven), List.take_length, hlen,
      List.take_length]
  · have hcut : s.length / 2 * 2 = s.length - 1 := by omega
    rw [encodeChallenge_eq_iff hlen, hcut, List.dropLast_eq_take, List.dropLast_eq_take, hlen]

end Sys2Proof.Machine
end

section
/-! PROOF. The encoder's commands, each with everything it leaves alone: CLR (O11), PUSH (O12) and FIN (O13). What a
command answers is read off the lemmas of `Laws/Exec.lean`, and what its writes leave in the buffer off those of
`Laws/Ops.lean`. -/

namespace Sys2Proof.Machine

/-! ### CLR (R66) -/

/-- Two PUSHes from an even count (R33, R67): they fill the next two slots, the second character's frame first. -/
theorem exec_push_pair {s : State} (c₁ c₂ : CharCode) (he : s.enc = true) (heven : s.cnt.toNat % 2 = 0)
    (hroom : s.cnt.toNat < 256) :
    ∃ a b, exec (.push c₁) s = .next a ∧ exec (.push c₂) a = .next b ∧
      b = { s with fb := b.fb, hold := nibble c₁, cnt := s.cnt + 1#9 + 1#9 } ∧
      ∀ j, Memory.read? b.fb j =
        if j = s.cnt.toNat + 1 then some (lut (nibble c₁))
        else if j = s.cnt.toNat then some (lut (nibble c₂)) else Memory.read? s.fb j := by
  have hsucc := count_succ_toNat hroom
  refine ⟨_, _, exec_push_opens c₁ he (by omega) heven, exec_push_closes c₂ he ?_, rfl, fun j => ?_⟩
  · show (s.cnt + 1#9).toNat % 2 = 1
    omega
  · have hslot : (slotIndex (s.cnt + 1#9)).toNat = s.cnt.toNat + 1 := by
      rw [slotIndex_toNat_of_lt (by omega), hsucc]
    have hpred : (slotIndex (s.cnt + 1#9 - 1#9)).toNat = s.cnt.toNat := by
      rw [slotIndex_pred_toNat (by omega) (by omega), hsucc, Nat.add_sub_cancel]
    simp only [writePair_read?, hslot, hpred]

/-- The rule's remark: from `cnt = 0` the characters `0`, `F`, `F`, `F` write the preamble that CLR writes at once. -/
theorem exec_clr_as_pushes {s : State} (hr : s.run = false) :
    ∃ t a b c d,
      exec .clr s = .next t ∧
      exec (.push 0x30#8) { s with cnt := 0#9, enc := true, valid := false, ovf := false } = .next a ∧
      exec (.push 0x46#8) a = .next b ∧ exec (.push 0x46#8) b = .next c ∧ exec (.push 0x46#8) c = .next d ∧
      t = { d with fb := t.fb, hold := t.hold } ∧
      ∀ j, Memory.read? t.fb j = Memory.read? d.fb j := by
  obtain ⟨a, b, ha, hb, hbs, hbfb⟩ :=
    exec_push_pair (s := { s with cnt := 0#9, enc := true, valid := false, ovf := false }) 0x30#8 0x46#8 rfl rfl
      (show (0#9).toNat < 256 by decide)
  have hcnt : b.cnt = 2#9 := by rw [hbs]; rfl
  obtain ⟨c, d, hc, hd, hds, hdfb⟩ :=
    exec_push_pair (s := b) 0x46#8 0x46#8 (by rw [hbs]) (by rw [hcnt]; rfl) (by rw [hcnt]; decide)
  refine ⟨_, a, b, c, d, exec_clr_idle hr, ha, hb, hc, hd, ?_, fun j => ?_⟩
  · rw [hds, hbs]
    rfl
  · have h0 : lut (nibble 0x30#8) = 0x00#5 := by decide
    have hF : lut (nibble 0x46#8) = 0x1E#5 := by decide
    simp only [writePreamble_read?, hdfb, hbfb, hcnt, h0, hF, BitVec.toNat_ofNat]
    match j with
    | 0 | 1 | 2 | 3 => rfl
    | j + 4 => simp

/-- Settles O11. -/
theorem clrBeginsEncode : Obligations.ClrBeginsEncode := by
  refine ⟨fun s hr => ⟨_, exec_clr_idle hr, rfl, ?_⟩, fun s hr => ⟨_, exec_clr_ignored hr⟩,
    fun s => exec_clr_as_pushes⟩
  simp only [writePreamble_read?]
  refine ⟨rfl, rfl, rfl, rfl, fun j hj => ?_⟩
  iterate 4 rw [if_neg (by omega)]

/-! ### PUSH (R67) -/

/-- Settles O12, case by case of the rule. -/
theorem pushTakesCharacter : Obligations.PushTakesCharacter := by
  refine ⟨fun s c => exec_push_full c, fun s c => exec_push_opens c,
    fun s c he hodd => ⟨_, exec_push_closes c he hodd, rfl, ?_⟩, fun s c he => ⟨_, exec_push_ignored c he⟩⟩
  simp only [writePair_read?]
  refine ⟨?_, if_pos trivial, fun j hpred hslot => ?_⟩
  · rw [if_neg (slotIndex_pred_ne s.cnt), if_pos trivial]
  · rw [if_neg hslot, if_neg hpred]

/-! ### FIN (R68) -/

/-- Settles O13, case by case of the rule. -/
theorem finPublishesResult : Obligations.FinPublishesResult := by
  refine ⟨fun s => exec_fin_even, fun s he hodd => ⟨_, exec_fin_odd he hodd, rfl, ?_⟩,
    fun s he => ⟨_, exec_fin_ignored he⟩⟩
  simp only [writeOddTail_read?]
  exact ⟨if_pos trivial, fun j hj => if_neg hj⟩

end Sys2Proof.Machine
end

section
/-! PROOF. The encoder over runs of command words: an overflow locks out START until a CLR (O16), and CLR, PUSHes and FIN
compute `encode` (O15). Both are inductions over the words (`RunsWords.keeps`, `RunsWords.cons_inv`); the second keeps
`Collected`, which says what the registers and the buffer hold of the nibbles pushed so far. -/

namespace Sys2Proof.Machine

/-! ### Runs, taken apart -/

/-- The converse of `runsWords_cons`: a run over words begins with the effect of the first. -/
theorem RunsWords.cons_inv {w : Command} {ws : List Command} {s t : State} (h : RunsWords (w :: ws) s t) :
    ∃ u, Effect (beginEdge s) (decode w) u ∧ RunsWords ws (timerSees u) t := by
  obtain ⟨u, hu, he⟩ := exec_effect (decode w) (beginEdge s)
  obtain ⟨x, hx⟩ := runsWords_exists ws (timerSees u)
  obtain rfl := runsWords_unique h (runsWords_cons hu hx)
  exact ⟨u, he, hx⟩

theorem RunsWords.eq_of_nil {s t : State} (h : RunsWords [] s t) : t = s :=
  runsWords_unique h (runsWords_nil s)

/-- A run over two lists of words passes between them. -/
theorem RunsWords.append_inv {ws vs : List Command} {s t : State} (h : RunsWords (ws ++ vs) s t) :
    ∃ u, RunsWords ws s u ∧ RunsWords vs u t := by
  obtain ⟨u, hu⟩ := runsWords_exists ws s
  obtain ⟨x, hx⟩ := runsWords_exists vs u
  obtain rfl := runsWords_unique h (runsWords_append hu hx)
  exact ⟨u, hu, hx⟩

/-- What the edge of every word keeps holds after a run. -/
theorem RunsWords.keeps {P : State → Prop} {ws : List Command} {s t : State} (h : RunsWords ws s t) (hs : P s)
    (hkeep : ∀ w ∈ ws, ∀ s u, P s → Effect (beginEdge s) (decode w) u → P (timerSees u)) : P t := by
  induction ws generalizing s with
  | nil => rwa [h.eq_of_nil]
  | cons w ws ih =>
    obtain ⟨u, he, hrest⟩ := h.cons_inv
    exact ih hrest (hkeep w (by simp) s u hs he) fun v hv => hkeep v (by simp [hv])

/-- A run over words takes these words and no other input. -/
theorem RunsWords.inputs {ws : List Command} {s t : State} (h : RunsWords ws s t) : t.inputs = s.inputs :=
  h.keeps (P := fun u => u.inputs = s.inputs) rfl fun _ _ _ _ hs he => he.inputs.trans hs

/-! ### The lock after a dropped character (R67, R68, R80) -/

/-- Nothing is shown and nothing can be: an overflow is noted, and no sequence is valid or running. -/
structure Locked (s : State) : Prop where
  overflowed : s.ovf = true
  noResult : s.valid = false
  idle : s.run = false

theorem Locked.beginEdge {s : State} (h : Locked s) : Locked (beginEdge s) := ⟨h.overflowed, h.noResult, h.idle⟩

theorem Locked.timerSees {s : State} (h : Locked s) : Locked (timerSees s) := ⟨h.overflowed, h.noResult, h.idle⟩

/-- Only CLR opens the lock: FIN publishes the complement of `OVF`, START wants a valid sequence and TICK a running
one. -/
theorem Effect.keeps_locked {s t : State} {i : Instr} (he : Effect s i t) (hi : i ≠ .clr) (h : Locked s) :
    Locked t ∧ t.trace = s.trace ∧ t.frameO = s.frameO ∧ t.loads = s.loads := by
  obtain ⟨hovf, hvalid, hrun⟩ := h
  cases he with
  | clr => exact absurd rfl hi
  | start v hv => simp [hvalid] at hv
  | tickNormal hr | tickPending hr => simp [hrun] at hr
  | pushFull => exact ⟨⟨rfl, hvalid, hrun⟩, rfl, rfl, rfl⟩
  | finEven | finOdd => exact ⟨⟨hovf, by simp [hovf], hrun⟩, rfl, rfl, rfl⟩
  | stop => exact ⟨⟨hovf, hvalid, rfl⟩, rfl, rfl, rfl⟩
  | _ => exact ⟨⟨hovf, hvalid, hrun⟩, rfl, rfl, rfl⟩

/-- Settles O16: every word but CLR keeps the lock and emits nothing. -/
theorem overflowLocksOutStart : Obligations.OverflowLocksOutStart := by
  intro s ws hovf hvalid hrun hws
  obtain ⟨t, ht⟩ := runsWords_exists ws s
  have hkept : Locked t ∧ t.trace = s.trace ∧ t.frameO = s.frameO ∧ t.loads = s.loads := by
    refine ht.keeps (P := fun u => Locked u ∧ u.trace = s.trace ∧ u.frameO = s.frameO ∧ u.loads = s.loads)
      ⟨⟨hovf, hvalid, hrun⟩, rfl, rfl, rfl⟩ ?_
    rintro w hw u v ⟨hlocked, htrace, hframe, hloads⟩ he
    obtain ⟨hlocked', htrace', hframe', hloads'⟩ := he.keeps_locked (hws w hw) hlocked.beginEdge
    exact ⟨hlocked'.timerSees, htrace'.trans htrace, hframe'.trans hframe, hloads'.trans hloads⟩
  obtain ⟨hlocked, hrecords⟩ := hkept
  exact ⟨t, ht, hlocked.overflowed, hlocked.noResult, hlocked.idle, hrecords⟩

/-! ### What an open encode has collected (R14, R33, R67) -/

/-- The encode is open and has been given the nibbles `vs`, the preamble's first: `cnt` counts them up to the buffer's
capacity, the closed pairs stand swapped in the buffer, an odd one waits in `hold`, and one too many has set `OVF`. -/
structure Collected (vs : List Nibble) (s : State) : Prop where
  opened : s.enc = true
  noResult : s.valid = false
  idle : s.run = false
  count : s.cnt.toNat = min vs.length 256
  overflow : s.ovf = decide (256 < vs.length)
  waiting : s.cnt.toNat % 2 = 1 → vs[s.cnt.toNat - 1]? = some s.hold
  pairs : ∀ j, j < s.cnt.toNat - s.cnt.toNat % 2 → Memory.read? s.fb j = vs[j ^^^ 1]?.map lut

/-- A state with the same encoder registers and buffer has collected the same. -/
theorem Collected.of_same {vs : List Nibble} {s t : State} (h : Collected vs s) (henc : t.enc = s.enc)
    (hvalid : t.valid = s.valid) (hrun : t.run = false) (hcnt : t.cnt = s.cnt) (hovf : t.ovf = s.ovf)
    (hhold : t.hold = s.hold) (hfb : t.fb = s.fb) : Collected vs t where
  opened := henc.trans h.opened
  noResult := hvalid.trans h.noResult
  idle := hrun
  count := by rw [hcnt]; exact h.count
  overflow := hovf.trans h.overflow
  waiting := by rw [hcnt, hhold]; exact h.waiting
  pairs := by rw [hcnt, hfb]; exact h.pairs

theorem Collected.beginEdge {vs : List Nibble} {s : State} (h : Collected vs s) : Collected vs (beginEdge s) :=
  h.of_same rfl rfl h.idle rfl rfl rfl rfl

theorem Collected.timerSees {vs : List Nibble} {s : State} (h : Collected vs s) : Collected vs (timerSees s) :=
  h.of_same rfl rfl h.idle rfl rfl rfl rfl

/-- CLR has collected the preamble (R66). -/
theorem Effect.collected_of_clr {s t : State} (he : Effect s .clr t) (hr : s.run = false) :
    Collected [0#4, 15#4, 15#4, 15#4] t := by
  cases he with
  | ignored _ _ h => simp [accepted, hr] at h
  | reserved _ h => simp [isReserved, Instr.opcode] at h
  | clr =>
    refine ⟨rfl, rfl, hr, rfl, rfl, fun hodd => by simp at hodd, fun j hj => ?_⟩
    have hj4 : j < 4 := by simpa using hj
    rw [writePreamble_read?]
    match j, hj4 with
    | 0, _ | 1, _ | 2, _ | 3, _ => rfl

/-- A command that is none of the encoder's leaves what has been collected (R29, R65). -/
theorem Effect.keeps_collected {vs : List Nibble} {s t : State} {i : Instr} (he : Effect s i t)
    (hi : isEncoderCommand i = false) (h : Collected vs s) : Collected vs t := by
  cases he with
  | clr | pushFull | pushOpens | pushCloses | finEven | finOdd => simp [isEncoderCommand] at hi
  | start v hv => simp [h.noResult] at hv
  | tickNormal hr | tickPending hr => simp [h.idle] at hr
  | stop => exact h.of_same rfl rfl rfl rfl rfl rfl rfl
  | _ => exact h.of_same rfl rfl h.idle rfl rfl rfl rfl

/-! ### A PUSH collects one nibble more (R67) -/

section Push
variable {vs : List Nibble} {s : State}

/-- With the buffer full the nibble is dropped: everything but `OVF` stays as it was. -/
theorem Collected.pushFull (h : Collected vs s) (v : Nibble) (hfull : s.cnt.toNat = 256) :
    Collected (vs ++ [v]) { s with ovf := true } where
  opened := h.opened
  noResult := h.noResult
  idle := h.idle
  count := by
    have := h.count
    simp only [List.length_append, List.length_singleton]
    omega
  overflow := by
    have := h.count
    simp only [List.length_append, List.length_singleton]
    exact (decide_eq_true (by omega)).symm
  waiting hodd := by simp [hfull] at hodd
  pairs j hj := by
    have := h.count
    have hj' : j < s.cnt.toNat - s.cnt.toNat % 2 := hj
    have hpartner : j ^^^ 1 < vs.length := by rw [xor_one_eq]; split <;> omega
    rw [List.getElem?_append_left hpartner]
    exact h.pairs j hj

/-- Below the capacity nothing has been dropped, and `cnt` is the number of nibbles given. -/
theorem Collected.count_of_room (h : Collected vs s) (hroom : s.cnt.toNat < 256) : s.cnt.toNat = vs.length := by
  have := h.count
  omega

theorem Collected.count_append (h : Collected vs s) (v : Nibble) (hroom : s.cnt.toNat < 256) :
    (s.cnt + 1#9).toNat = min (vs ++ [v]).length 256 := by
  have := h.count_of_room hroom
  rw [count_succ_toNat hroom, List.length_append, List.length_singleton]
  omega

theorem Collected.overflow_append (h : Collected vs s) (v : Nibble) (hroom : s.cnt.toNat < 256) :
    s.ovf = decide (256 < (vs ++ [v]).length) := by
  have := h.count_of_room hroom
  rw [h.overflow, List.length_append, List.length_singleton, decide_eq_decide]
  omega

/-- A first of a pair waits in `hold`; no pair is closed by it. -/
theorem Collected.pushOpens (h : Collected vs s) (v : Nibble) (hroom : s.cnt.toNat < 256)
    (heven : s.cnt.toNat % 2 = 0) : Collected (vs ++ [v]) { s with hold := v, cnt := s.cnt + 1#9 } where
  opened := h.opened
  noResult := h.noResult
  idle := h.idle
  count := h.count_append v hroom
  overflow := h.overflow_append v hroom
  waiting _ := by
    simp only [count_succ_toNat hroom, Nat.add_sub_cancel, h.count_of_room hroom, List.getElem?_concat_length]
  pairs j hj := by
    have := h.count_of_room hroom
    simp only [count_succ_toNat hroom] at hj
    have hpartner : j ^^^ 1 < vs.length := by rw [xor_one_eq]; split <;> omega
    rw [List.getElem?_append_left hpartner]
    exact h.pairs j (by omega)

/-- The two slots of the pair now closed get each the other's nibble; the earlier pairs keep theirs. -/
theorem Collected.pushCloses (h : Collected vs s) (v : Nibble) (hroom : s.cnt.toNat < 256)
    (hodd : s.cnt.toNat % 2 = 1) : Collected (vs ++ [v]) { writePair v s with cnt := s.cnt + 1#9 } where
  opened := h.opened
  noResult := h.noResult
  idle := h.idle
  count := h.count_append v hroom
  overflow := h.overflow_append v hroom
  waiting heven := by
    simp only [count_succ_toNat hroom] at heven
    omega
  pairs j hj := by
    have hcnt := h.count_of_room hroom
    simp only [count_succ_toNat hroom] at hj
    rw [writePair_read?, slotIndex_toNat_of_lt hroom, slotIndex_pred_toNat (by omega) (by omega)]
    split_ifs with hslot hpred
    · have hpartner : j ^^^ 1 = s.cnt.toNat - 1 := by rw [xor_one_eq, if_neg (by omega), hslot]
      rw [hpartner, List.getElem?_append_left (by omega), h.waiting hodd]
      rfl
    · have hpartner : j ^^^ 1 = vs.length := by rw [xor_one_eq, if_pos (by omega)]; omega
      rw [hpartner, List.getElem?_concat_length]
      rfl
    · have hpartner : j ^^^ 1 < vs.length := by rw [xor_one_eq]; split <;> omega
      rw [List.getElem?_append_left hpartner]
      exact h.pairs j (by omega)

end Push

/-- Whatever the count, an accepted PUSH collects its character's nibble. -/
theorem Effect.collected_of_push {vs : List Nibble} {s t : State} {c : CharCode} (he : Effect s (.push c) t)
    (h : Collected vs s) : Collected (vs ++ [nibble c]) t := by
  have hmax : s.cnt.toNat ≤ 256 := by rw [h.count]; exact Nat.min_le_right _ _
  cases he with
  | ignored _ _ hi => simp [accepted, h.opened] at hi
  | reserved _ hi => simp [isReserved, Instr.opcode] at hi
  | pushFull _ _ hfull => exact h.pushFull _ hfull
  | pushOpens _ _ hn heven => exact h.pushOpens _ (by omega) heven
  | pushCloses _ _ hodd => exact h.pushCloses _ (by omega) hodd

/-- The words between CLR and FIN: those that are encoder commands are PUSHes, each of which collects its nibble. -/
theorem RunsWords.collected {body : List Command} {chars : List CharCode} {vs : List Nibble} {s t : State}
    (hrun : RunsWords body s t) (hbody : (body.map decode).filter isEncoderCommand = chars.map Instr.push)
    (h : Collected vs s) : Collected (vs ++ chars.map nibble) t := by
  induction body generalizing chars vs s with
  | nil =>
    obtain rfl : chars = [] := by simpa using hbody.symm
    simpa [hrun.eq_of_nil] using h
  | cons w body ih =>
    obtain ⟨u, he, hrest⟩ := hrun.cons_inv
    rw [List.map_cons, List.filter_cons] at hbody
    split at hbody
    · obtain ⟨c, chars', rfl, hw, hbody'⟩ := List.map_eq_cons_iff.mp hbody.symm
      rw [← hw] at he
      simpa using ih hrest hbody'.symm (he.collected_of_push h.beginEdge).timerSees
    · next hw => exact ih hrest hbody (he.keeps_collected (by simpa using hw) h.beginEdge).timerSees

/-! ### FIN publishes what has been collected (R35, R68, R69) -/

/-- A finished encode of the nibbles `vs`: `len` and the flags, and the frames of as many as the buffer holds. -/
structure Published (vs : List Nibble) (t : State) : Prop where
  closed : t.enc = false
  length : t.len.toNat = min vs.length 256
  overflow : t.ovf = decide (256 < vs.length)
  result : t.valid = !t.ovf
  frames : ∀ j, j < min vs.length 256 → Memory.read? t.fb j = (swapPairs (vs.take 256))[j]?

theorem Published.timerSees {vs : List Nibble} {t : State} (h : Published vs t) : Published vs (timerSees t) :=
  ⟨h.closed, h.length, h.overflow, h.result, h.frames⟩

/-- The frame of a slot below the capacity, from all the nibbles given: its partner is below the capacity too. -/
theorem getElem?_swapPairs_take {vs : List Nibble} {j : Nat} (hj : j < min vs.length 256) :
    (swapPairs (vs.take 256))[j]? = some (vs[j ^^^ 1]?.elim 0#5 lut) := by
  have hpartner : j ^^^ 1 < 256 := by rw [xor_one_eq]; split <;> omega
  rw [getElem?_swapPairs (by rwa [List.length_take, Nat.min_comm]), List.getElem?_take_of_lt hpartner]

/-- FIN's case split: every slot but an odd last one lies in a closed pair. -/
theorem Effect.published_of_fin {vs : List Nibble} {s t : State} (he : Effect s .fin t) (h : Collected vs s) :
    Published vs t := by
  have hclosed : ∀ j, j < s.cnt.toNat - s.cnt.toNat % 2 →
      Memory.read? s.fb j = (swapPairs (vs.take 256))[j]? := by
    intro j hj
    have := h.count
    have hpartner : j ^^^ 1 < vs.length := by rw [xor_one_eq]; split <;> omega
    rw [h.pairs j hj, getElem?_swapPairs_take (by omega), List.getElem?_eq_getElem hpartner]
    rfl
  cases he with
  | ignored _ _ hi => simp [accepted, h.opened] at hi
  | reserved _ hi => simp [isReserved, Instr.opcode] at hi
  | finEven _ heven =>
    refine ⟨rfl, h.count, h.overflow, rfl, fun j hj => hclosed j ?_⟩
    rwa [heven, h.count]
  | finOdd _ hodd =>
    refine ⟨rfl, h.count, h.overflow, rfl, fun j hj => ?_⟩
    have := h.count
    rw [writeOddTail_read?, slotIndex_pred_toNat (by omega) (by omega)]
    split_ifs with htail
    · have hnone : vs[j ^^^ 1]? = none := by
        rw [xor_one_eq, if_pos (by omega), List.getElem?_eq_none (by omega)]
      rw [getElem?_swapPairs_take hj, hnone]
      rfl
    · exact hclosed j (by omega)

/-- What fits in the buffer beside the preamble is `N_MAX - 4` characters. -/
theorem swapPairs_take_code (chars : List CharCode) :
    swapPairs (((code chars).map nibble).take 256) = encodeChallenge (chars.take 252) := by
  rw [encodeChallenge, code_map_nibble, code_map_nibble, List.map_take]
  rfl

theorem Published.read?_slot {chars : List CharCode} {t : State} (h : Published ((code chars).map nibble) t) {j : Nat}
    (hj : j < min (chars.length + 4) 256) : Memory.read? t.fb j = (encodeChallenge (chars.take 252))[j]? := by
  rw [h.frames j (by rwa [List.length_map, code_length]), swapPairs_take_code]

/-- Settles O15: CLR collects the preamble, the body the characters, and FIN publishes them. -/
theorem commandsComputeEncode : Obligations.CommandsComputeEncode := by
  intro s chars first last body hrun hfirst hlast hbody
  obtain ⟨t, ht⟩ := runsWords_exists (first :: body ++ [last]) s
  have hpub : Published ((code chars).map nibble) t := by
    obtain ⟨a, hclr, hrest⟩ := ht.cons_inv
    obtain ⟨b, hpushes, hend⟩ := RunsWords.append_inv hrest
    obtain ⟨c, hfin, hnil⟩ := hend.cons_inv
    rw [hfirst] at hclr
    rw [hlast] at hfin
    rw [hnil.eq_of_nil, code_map_nibble]
    exact (hfin.published_of_fin (hpushes.collected hbody (hclr.collected_of_clr hrun).timerSees).beginEdge).timerSees
  have hlen : t.len.toNat = min (chars.length + 4) 256 := by
    rw [hpub.length, List.length_map, code_length]
  have hovf : t.ovf = decide (252 < chars.length) := by
    rw [hpub.overflow, List.length_map, code_length, decide_eq_decide]
    omega
  refine ⟨t, ht, hpub.closed, ht.inputs, fun hfits => ?_, fun hlong => ?_⟩
  · have hkept : t.ovf = false := hovf.trans (decide_eq_false (by omega))
    refine ⟨by omega, by rw [hpub.result, hkept]; rfl, hkept, fun j hj => ?_⟩
    rw [hpub.read?_slot (by omega), List.take_of_length_le hfits]
  · have hdropped : t.ovf = true := hovf.trans (decide_eq_true hlong)
    exact ⟨hdropped, by rw [hpub.result, hdropped]; rfl, fun j hj => hpub.read?_slot (by omega)⟩

end Sys2Proof.Machine
end

section
/-! PROOF. The sequencer's commands: START (O17), TICK, normal and pending (O18, O19, O20), RECONF (O21), NOP (O23), and the
one counter of R89 (O42). What a command answers is read off the lemmas of `Laws/Exec.lean`; `Effect.tick_emits` says once
what a running TICK emits, and `Effect.position_eq` what any command does to the position. -/

namespace Sys2Proof.Machine

/-! ### START, RECONF and NOP (R80, R85, R87) -/

/-- Settles O17. -/
theorem startBeginsShowing : Obligations.StartBeginsShowing :=
  ⟨fun _ v => exec_start_valid v, fun _ v hv => ⟨_, exec_start_ignored v hv⟩⟩

/-- Settles O21. -/
theorem reconfOnlySetsValueAndFlag : Obligations.ReconfOnlySetsValueAndFlag :=
  fun s v => exec_reconf v s

/-- The edge that executes a NOP is the idle edge (R45, R87). -/
theorem commandEdge_nop (s : State) : commandEdge .nop s = .next (idleEdge s) :=
  commandEdge_of_exec (exec_nop _)

/-- Settles O23. -/
theorem nopIsIdle : Obligations.NopIsIdle := by
  refine ⟨exec_nop, fun s w x rest hw => ?_⟩
  rw [step_input rfl, takeInput_command, hw, commandEdge_nop, step_input rfl, takeInput_idle]

/-! ### TICK (R81 to R83) -/

/-- R23, R81: a running TICK emits the frame of its slot once, marked steady unless an interval change is pending. -/
theorem Effect.tick_emits {s t : State} (he : Effect s .tick t) (hr : s.run = true) :
    t.frameO = tickFrame s ∧ t.frameStbO = true ∧
      t.trace = s.trace ++ [{ frame := tickFrame s, steady := !s.pend }] := by
  cases he with
  | ignored _ _ h => simp [accepted, hr] at h
  | reserved _ h => simp [isReserved, Instr.opcode] at h
  | tickNormal _ hp => simp [hp]
  | tickPending _ hp => simp [pendingTick_eq, hp]

/-- Settles O18. -/
theorem tickIsGatedByRun : Obligations.TickIsGatedByRun := by
  refine ⟨fun s hr => ⟨_, exec_tick_ignored hr⟩, fun s hr => ?_⟩
  obtain ⟨t, hex, he⟩ := exec_effect .tick s
  obtain ⟨hframe, hstrobe, htrace⟩ := he.tick_emits hr
  exact ⟨t, tickFrame s, hex, hframe, hstrobe, htrace⟩

/-- Settles O19: the slot stored is read back, and the next slot is `nextIdx`. -/
theorem normalTickEmitsThenSteps : Obligations.NormalTickEmitsThenSteps := by
  intro s hr hp
  refine ⟨_, exec_tick_normal hr hp, ?_, fun hph => ?_, fun hph hlast => ?_, fun hph hinside => ?_, ?_,
    fun j hj => ?_⟩
  · rw [normalTick_eq]
    rfl
  · rw [normalTick_idx, if_pos hph]
  · rw [normalTick_idx, if_neg (by simp [hph]), nextIdx_eq, if_pos hlast]
  · rw [normalTick_idx, if_neg (by simp [hph]), nextIdx_eq, if_neg hinside]
  · rw [normalTick_fb, Memory.read?_write_same]
    rfl
  · rw [normalTick_fb, Memory.read?_write_other _ hj]

/-- Settles O20. -/
theorem pendingTickReschedules : Obligations.PendingTickReschedules := by
  intro s hr hp
  rw [exec_tick_pending hr hp, pendingTick_eq]
  rfl

/-! ### The one counter (R89) -/

/-- The slot of a position (R89). -/
theorem position_div_two (s : State) : position s / 2 = s.idx.toNat := by
  have := Bool.toNat_le s.phase
  unfold position
  omega

/-- The clock bit of a position: 1 at the even ones (R89). -/
theorem decide_position_mod_two (s : State) : decide (position s % 2 = 0) = s.phase := by
  unfold position
  cases s.phase
  · exact decide_eq_false (by rw [Bool.toNat_false]; omega)
  · exact decide_eq_true (by rw [Bool.toNat_true]; omega)

theorem tickFrame_eq_position (s : State) :
    tickFrame s = withClock (decide (position s % 2 = 0)) (slotAt s.fb (position s / 2)) := by
  rw [decide_position_mod_two, position_div_two]
  rfl

/-- I5 in terms of the counter. -/
theorem Inv.position_lt {s : State} (h : Inv s) (hr : s.run = true) : position s < 2 * s.len.toNat := by
  have hidx := h.idxInSequence hr
  unfold position
  omega

theorem positionAfter_of_not_accepted {s : State} {i : Instr} (h : accepted i s = false) :
    positionAfter i s = position s := by
  cases i with
  | start v => exact if_neg (by simpa [accepted] using h)
  | tick => exact if_neg (by rw [show s.run = false from h]; simp)
  | stop => simp [accepted] at h
  | _ => rfl

/-- START, TICK and STOP own the position (R29); every other command leaves it. -/
theorem positionAfter_of_other {i : Instr} (s : State) (hstart : ∀ v, i ≠ .start v) (htick : i ≠ .tick)
    (hstop : i ≠ .stop) : positionAfter i s = position s := by
  cases i with
  | start v => exact absurd rfl (hstart v)
  | tick => exact absurd rfl htick
  | stop => exact absurd rfl hstop
  | _ => rfl

/-- A normal TICK is one step of the counter modulo `2*len` (R82, R89). -/
theorem Inv.position_normalTick {s : State} (h : Inv s) (hr : s.run = true) :
    position (Machine.normalTick s) = (position s + 1) % (2 * s.len.toNat) := by
  obtain ⟨hv, hidx⟩ := h.running hr
  exact advance_position (s := emit (tickFrame s) true (writeSlot s.idx (tickFrame s) s)) hidx (h.lenInRange hv).2

/-- R89's first clause: what each command does to the counter. -/
theorem Effect.position_eq {s t : State} {i : Instr} (he : Effect s i t) (h : Inv s) :
    position t = positionAfter i s := by
  cases he with
  | ignored i m hi => rw [positionAfter_of_not_accepted hi]; rfl
  | reserved i hi =>
    obtain ⟨htick, hstart⟩ := no_pulse_of_reserved hi
    rw [positionAfter_of_other s hstart htick (by rintro rfl; simp [isReserved, Instr.opcode] at hi)]
    rfl
  | start v hv => exact (if_pos hv).symm
  | tickNormal hr hp =>
    rw [h.position_normalTick hr]
    exact (if_pos (by rw [hr, hp]; rfl)).symm
  | tickPending hr hp => exact (if_neg (by rw [hr, hp]; simp)).symm
  | _ => rfl

/-- Settles O42. -/
theorem cyclicCounter : Obligations.CyclicCounter := by
  intro s t i h hex
  have he := effect_of_exec hex
  refine ⟨he.position_eq h, ?_, h.position_lt⟩
  rintro rfl hr
  rw [(he.tick_emits hr).1, tickFrame_eq_position]

end Sys2Proof.Machine
end

section
/-! PROOF. The sequencer over runs of command words: what a run emits (O41), the silence after a STOP (O22), and a RECONF
before a TICK (O43). The first is an induction over the words that keeps `Showing`: the position counts the normal ticks,
and each emission is numbered by those before it. -/

namespace Sys2Proof.Machine

/-! ### Lists of emissions, numbered by their normal ticks (R84, R94) -/

theorem steadyCount_append_singleton (es : List Emission) (e : Emission) :
    steadyCount (es ++ [e]) = steadyCount es + e.steady.toNat := by
  unfold steadyCount
  cases he : e.steady <;> simp [he]

theorem steadyFrames_append_singleton (es : List Emission) (e : Emission) :
    steadyFrames (es ++ [e]) = steadyFrames es ++ if e.steady then [e.frame] else [] := by
  unfold steadyFrames
  cases he : e.steady <;> simp [he]

/-- Every emission is the frame that `F` gives for the number of normal ticks before it. -/
def Numbered (F : Nat → Frame) (es : List Emission) : Prop :=
  ∀ k e, es[k]? = some e → e.frame = F (steadyCount (es.take k))

theorem numbered_nil (F : Nat → Frame) : Numbered F [] := fun k e h => by simp at h

theorem numbered_append_singleton {F : Nat → Frame} {es : List Emission} {e : Emission} :
    Numbered F (es ++ [e]) ↔ Numbered F es ∧ e.frame = F (steadyCount es) := by
  constructor
  · refine fun h => ⟨fun k x hk => ?_, ?_⟩
    · obtain ⟨hlt, -⟩ := List.getElem?_eq_some_iff.mp hk
      rw [h k x (by rwa [List.getElem?_append_left hlt]), List.take_append_of_le_length hlt.le]
    · simpa using h es.length e List.getElem?_concat_length
  · rintro ⟨h, he⟩ k x hk
    rcases lt_trichotomy k es.length with hlt | rfl | hgt
    · rw [List.getElem?_append_left hlt] at hk
      rw [List.take_append_of_le_length hlt.le]
      exact h k x hk
    · obtain rfl : e = x := by simpa using hk
      simpa using he
    · rw [List.getElem?_eq_none (by rw [List.length_append, List.length_singleton]; omega)] at hk
      cases hk

/-- Without the pending emissions, numbered emissions are `F(0), F(1), ...` (R94). -/
theorem Numbered.steadyFrames_eq {F : Nat → Frame} {es : List Emission} (h : Numbered F es) :
    steadyFrames es = (List.range (steadyCount es)).map F := by
  induction es using List.reverseRecOn with
  | nil => rfl
  | append_singleton es e ih =>
    obtain ⟨hes, he⟩ := numbered_append_singleton.mp h
    rw [steadyFrames_append_singleton, steadyCount_append_singleton, ih hes]
    cases e.steady
    · simp
    · simp [List.range_succ, he]

/-! ### What a run emits (R84, R89) -/

/-- `F(n)` is the frame of a TICK at position `n` modulo `2*len` (R84, R89). -/
theorem tickFrame_eq_frameAfter {s u : State} {n : Nat}
    (hdata : ∀ j, dataBits (slotAt u.fb j) = dataBits (slotAt s.fb j))
    (hpos : position u = n % (2 * s.len.toNat)) : tickFrame u = frameAfter s n := by
  have hclock : position u % 2 = n % 2 := by rw [hpos, Nat.mod_mul_right_mod]
  have hslot : position u / 2 = n / 2 % s.len.toNat := by rw [hpos, Nat.mod_mul_right_div_self]
  rw [tickFrame_eq_position, hclock, hslot]
  exact withClock_congr (hdata _)

/-- `u` is running the sequence of `s` and has emitted `es` since its START. -/
structure Showing (s : State) (es : List Emission) (u : State) : Prop where
  inv : Inv u
  running : u.run = true
  length : u.len = s.len
  data : ∀ j, dataBits (slotAt u.fb j) = dataBits (slotAt s.fb j)
  emitted : u.trace = s.trace ++ es
  numbered : Numbered (frameAfter s) es
  counted : position u = steadyCount es % (2 * s.len.toNat)

theorem Showing.beginEdge {s u : State} {es : List Emission} (h : Showing s es u) : Showing s es (beginEdge u) :=
  ⟨inv_of_edge h.inv u.timer u.inputs false false, h.running, h.length, h.data, h.emitted, h.numbered, h.counted⟩

theorem Showing.timerSees {s u : State} {es : List Emission} (h : Showing s es u) : Showing s es (timerSees u) :=
  ⟨inv_of_edge h.inv _ u.inputs u.frameStbO u.tmrLoadO, h.running, h.length, h.data, h.emitted, h.numbered, h.counted⟩

/-- An accepted START shows the sequence from position 0, nothing emitted yet (R80). -/
theorem Effect.showing_of_start {s t : State} {v : Interval} (he : Effect s (.start v) t) (h : Inv s)
    (hv : s.valid = true) : Showing s [] t := by
  have hinv := he.keeps_inv h
  cases he with
  | ignored _ _ hi => simp [accepted, hv] at hi
  | reserved _ hi => simp [isReserved, Instr.opcode] at hi
  | start =>
    exact ⟨hinv, rfl, rfl, fun _ => rfl, (List.append_nil _).symm, numbered_nil _, (Nat.zero_mod _).symm⟩

/-- Only START and STOP write `RUN` (R29). -/
theorem Effect.keeps_running {s t : State} {i : Instr} (he : Effect s i t) (hstart : ∀ v, i ≠ .start v)
    (hstop : i ≠ .stop) (hr : s.run = true) : t.run = true := by
  by_contra hne
  rcases he.run_writer (by rwa [hr]) with ⟨v, hi⟩ | hi
  · exact hstart v hi
  · exact hstop hi

/-- A TICK emits the frame of its number, and a normal one counts (R82, R83). -/
theorem Effect.showing_of_tick {s u t : State} {es : List Emission} (he : Effect u .tick t) (h : Showing s es u) :
    Showing s (es ++ [{ frame := tickFrame u, steady := !u.pend }]) t := by
  have hr := h.running
  obtain ⟨-, -, htrace⟩ := he.tick_emits hr
  obtain ⟨hlen, -, hdata⟩ := he.keeps_running_sequence h.inv hr
  refine ⟨he.keeps_inv h.inv, he.keeps_running nofun nofun hr, hlen.trans h.length,
    fun j => (hdata j).trans (h.data j), ?_, ?_, ?_⟩
  · rw [htrace, h.emitted, List.append_assoc]
  · exact numbered_append_singleton.mpr ⟨h.numbered, tickFrame_eq_frameAfter h.data h.counted⟩
  · rw [he.position_eq h.inv, steadyCount_append_singleton]
    cases hp : u.pend
    · simp [positionAfter, hr, hp, h.counted, h.length]
    · simp [positionAfter, hp, h.counted]

/-- No other command emits or steps, and none but STOP and START ends the run (R29, R43). -/
theorem Effect.keeps_showing {s u t : State} {es : List Emission} {i : Instr} (he : Effect u i t)
    (hstart : ∀ v, i ≠ .start v) (hstop : i ≠ .stop) (htick : i ≠ .tick) (h : Showing s es u) : Showing s es t := by
  have hr := h.running
  obtain ⟨hlen, -, hdata⟩ := he.keeps_running_sequence h.inv hr
  refine ⟨he.keeps_inv h.inv, he.keeps_running hstart hstop hr, hlen.trans h.length,
    fun j => (hdata j).trans (h.data j), ?_, h.numbered, ?_⟩
  · rcases he.trace_cases with ⟨hi, -, -⟩ | ⟨htrace, -⟩
    · exact absurd hi htick
    · exact htrace.trans h.emitted
  · rw [he.position_eq h.inv, positionAfter_of_other u hstart htick hstop, h.counted]

/-- A run goes on showing the sequence, with one emission more for each TICK. -/
theorem RunsWords.showing {ws : List Command} {s u t : State} {es : List Emission} (hrun : RunsWords ws u t)
    (hws : ∀ w ∈ ws, decode w ≠ .stop ∧ ∀ x, decode w ≠ .start x) (h : Showing s es u) :
    ∃ es', Showing s es' t ∧ es'.length = es.length + ((ws.map decode).filter (· == .tick)).length := by
  induction ws generalizing u es with
  | nil => exact ⟨es, hrun.eq_of_nil ▸ h, rfl⟩
  | cons w ws ih =>
    obtain ⟨a, he, hrest⟩ := hrun.cons_inv
    obtain ⟨⟨hstop, hstart⟩, hws'⟩ := List.forall_mem_cons.mp hws
    by_cases hw : decode w = .tick
    · rw [hw] at he
      obtain ⟨es', hes', hlen⟩ := ih hrest hws' (he.showing_of_tick h.beginEdge).timerSees
      exact ⟨es', hes', by simp [hlen, hw, Nat.add_assoc, Nat.add_comm]⟩
    · obtain ⟨es', hes', hlen⟩ := ih hrest hws' (he.keeps_showing hstart hstop hw h.beginEdge).timerSees
      exact ⟨es', hes', by simp [hlen, hw]⟩

/-- Settles O41: START shows the sequence with nothing emitted, and the words after it keep it shown. -/
theorem emittedTraceOfRun : Obligations.EmittedTraceOfRun := by
  intro s v first ws h hv hfirst hws
  obtain ⟨t, ht⟩ := runsWords_exists (first :: ws) s
  obtain ⟨u, hstart, hrest⟩ := ht.cons_inv
  rw [hfirst] at hstart
  have hshown : Showing (beginEdge s) [] u := hstart.showing_of_start (inv_of_edge h s.timer s.inputs false false) hv
  obtain ⟨es, hes, hlen⟩ := hrest.showing hws hshown.timerSees
  exact ⟨t, es, ht, hes.emitted, hes.numbered.steadyFrames_eq, hes.numbered, by simpa using hlen, hes.counted,
    hes.running⟩

/-! ### After a STOP (R86) -/

/-- With the sequencer idle, only START has it running again, and nothing is emitted (R81, R86). -/
theorem Effect.keeps_idle {s t : State} {i : Instr} (he : Effect s i t) (hstart : ∀ v, i ≠ .start v)
    (hr : s.run = false) : t.run = false ∧ t.trace = s.trace ∧ t.frameO = s.frameO := by
  cases he with
  | start v => exact absurd rfl (hstart v)
  | tickNormal h | tickPending h => simp [hr] at h
  | stop => exact ⟨rfl, rfl, rfl⟩
  | _ => exact ⟨hr, rfl, rfl⟩

/-- Settles O22: STOP leaves the sequencer idle, and the words after it keep it so. -/
theorem stopTearsDown : Obligations.StopTearsDown := by
  refine ⟨exec_stop, fun s first ws hfirst hws => ?_⟩
  obtain ⟨t, ht⟩ := runsWords_exists ws (timerSees { rewind (beginEdge s) with run := false, pend := false })
  have hidle : t.run = false ∧ t.trace = s.trace ∧ t.frameO = s.frameO := by
    refine ht.keeps (P := fun u => u.run = false ∧ u.trace = s.trace ∧ u.frameO = s.frameO) ⟨rfl, rfl, rfl⟩ ?_
    rintro w hw u v ⟨hrun, htrace, hframe⟩ he
    obtain ⟨hrun', htrace', hframe'⟩ := he.keeps_idle (hws w hw) hrun
    exact ⟨hrun', htrace'.trans htrace, hframe'.trans hframe⟩
  obtain ⟨hrun, htrace, hframe⟩ := hidle
  exact ⟨t, runsWords_cons (by rw [hfirst]; exact exec_stop _) ht, htrace, hframe, hrun⟩

/-! ### A RECONF before a TICK (R83, R85, R109) -/

/-- A TICK presented with no interval change pending is a normal one (R81). -/
theorem runsWords_tick_normal {s : State} {tick : Command} (htick : decode tick = .tick) (hr : s.run = true)
    (hp : s.pend = false) : RunsWords [tick] s (timerSees (normalTick (beginEdge s))) :=
  runsWords_cons (by rw [htick]; exact exec_tick_normal hr hp) (runsWords_nil _)

/-- A RECONF and a TICK: the frame is emitted, the new interval is loaded and the timer service notes it; nothing is
stepped or stored (R83, R85, R109 d). -/
theorem runsWords_reconf_tick {s : State} {v : Interval} {reconf tick : Command} (hreconf : decode reconf = .reconf v)
    (htick : decode tick = .tick) (hr : s.run = true) :
    ∃ a, RunsWords [reconf, tick] s a ∧ a = { s with
      tickInterval := v
      pend := false
      loads := s.loads ++ [v]
      tmrLoadO := true
      frameO := tickFrame s
      frameStbO := true
      trace := s.trace ++ [{ frame := tickFrame s, steady := false }]
      timer := { s.timer with loadSeen := some v } } := by
  refine ⟨_, runsWords_cons (by rw [hreconf]; exact exec_reconf v _)
    (runsWords_cons (by rw [htick]; exact exec_tick_pending hr rfl) (runsWords_nil _)), ?_⟩
  rw [timerSees_of_pulse rfl, pendingTick_eq]
  simp [hr, tickFrame]

/-- Settles O43: the TICK after the pending one runs on the buffer and position that the TICK alone would have met. -/
theorem reconfSkipsNothing : Obligations.ReconfSkipsNothing := by
  intro s t v reconf tick hr hp hreconf htick ht
  obtain rfl := runsWords_unique ht (runsWords_tick_normal htick hr hp)
  obtain ⟨a, ha, rfl⟩ := runsWords_reconf_tick hreconf htick hr
  refine ⟨_, _, ha, runsWords_append ha (runsWords_tick_normal htick hr rfl), ?_⟩
  rw [normalTick_eq, normalTick_eq]
  exact ⟨rfl, rfl, rfl, rfl, rfl, rfl, rfl, rfl, rfl, rfl⟩

end Sys2Proof.Machine
end

section
/-! PROOF. The rules about all commands (R100 to R102): every command completes (O26), the refusal marks of the model
(O25), and the acceptance table with its mode changes (O27). `exec_of_not_accepted` and `exec_of_reserved` say once what a
command without an effect answers; `modeOf_eq_some_iff` gives the flags of a mode, and `Effect.modeOf_eq` the mode of a
command's result. -/

namespace Sys2Proof.Machine

/-! ### The commands without an effect: ignored or reserved (R48, R101) -/

theorem exec_next_unique {i : Instr} {s t t' : State} (h : exec i s = .next t) (h' : exec i s = .next t') : t = t' :=
  Host.Outcome.next.inj (h.symm.trans h')

/-- A command that is not accepted leaves a mark of its own kind, and nothing else (R65, R80, R81). -/
theorem exec_of_not_accepted {i : Instr} {s : State} (h : accepted i s = false) :
    ∃ m, exec i s = .next (ignore m s) ∧ marksLeftBy i s = [m] := by
  cases i with
  | clr =>
    have hr : s.run = true := by simpa [accepted] using h
    exact ⟨_, exec_clr_ignored hr, if_pos hr⟩
  | push c => exact ⟨_, exec_push_ignored c h, if_neg (ne_true_of_eq_false h)⟩
  | fin => exact ⟨_, exec_fin_ignored h, if_neg (ne_true_of_eq_false h)⟩
  | start v => exact ⟨_, exec_start_ignored v h, if_neg (ne_true_of_eq_false h)⟩
  | tick => exact ⟨_, exec_tick_ignored h, if_neg (ne_true_of_eq_false h)⟩
  | _ => cases h

theorem exec_of_reserved {i : Instr} (s : State) (h : isReserved i = true) :
    exec i s = .next (ignore .reservedOpcode s) ∧ marksLeftBy i s = [.reservedOpcode] := by
  cases i with
  | nop | clr | push | fin | start | tick | reconf | stop => simp [isReserved, Instr.opcode] at h
  | _ => exact ⟨rfl, rfl⟩

theorem marksLeftBy_of_executed {i : Instr} {s : State} (ha : accepted i s = true) (hi : isReserved i = false) :
    marksLeftBy i s = [] := by
  cases i with
  | clr => exact if_neg (by simpa [accepted] using ha)
  | push | fin | start | tick => exact if_pos ha
  | nop | reconf | stop => rfl
  | _ => cases hi

/-- An effect of the hardware leaves no mark. -/
theorem Effect.marks_of_executed {s t : State} {i : Instr} (he : Effect s i t) (ha : accepted i s = true)
    (hi : isReserved i = false) : t.marks = s.marks := by
  cases he with
  | ignored _ _ h => simp [h] at ha
  | reserved _ h => simp [h] at hi
  | _ => simp [Machine.normalTick, Machine.pendingTick]

/-- Settles O25: an ignored, a reserved and an executed command. -/
theorem marksAreLeftByIgnoredAndReserved : Obligations.MarksAreLeftByIgnoredAndReserved := by
  intro i s t hex
  rcases Bool.dichotomy (accepted i s) with ha | ha
  · obtain ⟨m, hm, hleft⟩ := exec_of_not_accepted ha
    obtain rfl := exec_next_unique hex hm
    rw [hleft, ignore_marks]
  · rcases Bool.dichotomy (isReserved i) with hi | hi
    · rw [(effect_of_exec hex).marks_of_executed ha hi, marksLeftBy_of_executed ha hi, List.append_nil]
    · obtain ⟨hm, hleft⟩ := exec_of_reserved s hi
      obtain rfl := exec_next_unique hex hm
      rw [hleft, ignore_marks]

/-- Settles O26. -/
theorem everyCommandCompletes : Obligations.EveryCommandCompletes := by
  intro i s
  obtain ⟨t, hex, -⟩ := exec_effect i s
  refine ⟨t, hex, fun ha => ?_⟩
  obtain ⟨m, hm, -⟩ := exec_of_not_accepted ha
  obtain rfl := exec_next_unique hex hm
  rfl

/-! ### The modes and their flags (R102) -/

theorem modeOf_eq_some_iff {s : State} {m : Mode} :
    modeOf s = some m ↔
      s.enc = (m == .encodeOpen) ∧ s.valid = (m == .ready || m == .running) ∧ s.run = (m == .running) := by
  unfold modeOf
  generalize s.enc = enc, s.valid = valid, s.run = run
  cases m <;> revert enc valid run <;> decide

theorem accepted_eq_executedIn {s : State} {m : Mode} (i : Instr) (h : modeOf s = some m) :
    accepted i s = executedIn i m := by
  obtain ⟨henc, hvalid, hrun⟩ := modeOf_eq_some_iff.mp h
  cases i with
  | clr => exact congrArg not hrun
  | push | fin => exact henc
  | start => exact hvalid
  | tick => exact hrun
  | _ => rfl

theorem modeAfter_of_not_executed {i : Instr} {m : Mode} (ovf : Bool) (h : executedIn i m = false) :
    modeAfter i ovf m = m := by
  cases i with
  | clr =>
    obtain rfl : m = .running := by simpa [executedIn] using h
    rfl
  | fin => exact if_neg (ne_of_beq_false h)
  | start =>
    obtain ⟨hready, -⟩ : m ≠ .ready ∧ m ≠ .running := by simpa [executedIn] using h
    exact if_neg hready
  | stop => cases h
  | _ => rfl

theorem modeAfter_of_reserved {i : Instr} (ovf : Bool) (m : Mode) (h : isReserved i = true) :
    modeAfter i ovf m = m := by
  cases i with
  | nop | clr | push | fin | start | tick | reconf | stop => simp [isReserved, Instr.opcode] at h
  | _ => rfl

/-- The mode changes of R102: CLR opens an encode and FIN closes it, START and STOP write `RUN`, and nothing else writes
the three flags. -/
theorem Effect.modeOf_eq {s t : State} {i : Instr} {m : Mode} (he : Effect s i t) (hm : modeOf s = some m) :
    modeOf t = some (modeAfter i s.ovf m) := by
  obtain ⟨henc, hvalid, hrun⟩ := modeOf_eq_some_iff.mp hm
  cases he with
  | ignored i _ h =>
    rw [modeAfter_of_not_executed _ (accepted_eq_executedIn i hm ▸ h)]
    exact hm
  | reserved i h =>
    rw [modeAfter_of_reserved _ _ h]
    exact hm
  | clr h =>
    have hne : m ≠ .running := by simpa [h] using hrun
    rw [show modeAfter .clr s.ovf m = .encodeOpen from if_neg hne, modeOf_eq_some_iff]
    exact ⟨rfl, rfl, h⟩
  | finEven h | finOdd h =>
    obtain rfl : m = .encodeOpen := by simpa [h] using henc
    cases s.ovf
    all_goals exact modeOf_eq_some_iff.mpr ⟨rfl, rfl, hrun⟩
  | start v h =>
    obtain rfl | rfl : m = .ready ∨ m = .running := by simpa [h] using hvalid
    all_goals exact modeOf_eq_some_iff.mpr ⟨henc, h, rfl⟩
  | tickNormal =>
    rw [normalTick_eq]
    exact hm
  | stop =>
    cases m
    all_goals exact modeOf_eq_some_iff.mpr ⟨henc, hvalid, rfl⟩
  | _ => exact hm

/-- With the sequencer idle, I8 has the position at its start already, so a STOP has `PEND` left to clear. -/
theorem Inv.stop_of_idle {s : State} (h : Inv s) (hr : s.run = false) :
    { rewind s with run := false, pend := false } = { s with pend := false } := by
  obtain ⟨hidx, hphase⟩ := h.idleAtStart hr
  rw [rewind, ← hidx, ← hphase, ← hr]

/-- Settles O27. -/
theorem acceptanceTable : Obligations.AcceptanceTable := by
  intro i s t m hm hex
  have he := effect_of_exec hex
  have hacc := accepted_eq_executedIn i hm
  refine ⟨hacc, he.modeOf_eq hm, fun hi => ?_, ?_, ?_⟩
  · obtain ⟨k, hk, -⟩ := exec_of_not_accepted (hacc.trans hi)
    obtain rfl := exec_next_unique hex hk
    rfl
  · rintro (rfl | hi)
    · obtain rfl := exec_next_unique hex (exec_nop s)
      rfl
    · obtain rfl := exec_next_unique hex (exec_of_reserved s hi).1
      rfl
  · rintro rfl hne h
    obtain ⟨-, -, hrun⟩ := modeOf_eq_some_iff.mp hm
    obtain rfl := exec_next_unique hex (exec_stop s)
    exact h.stop_of_idle (hrun.trans (beq_false_of_ne hne))

end Sys2Proof.Machine
end

section
/-! PROOF. The timer service (R107 to R111) and the arbiter (R104): a time unit (O46), a grant (O48), the step's one
refusal (O47), the two orders of a RECONF and a TICK (O45), what the service is handed (O51), that nothing is due while it is
cancelled (O49), that it keeps counting (O52), and when a tick falls due (O50). -/

namespace Sys2Proof.Machine

/-! ### One time unit (R110), one equation per case -/

section TimeUnit
variable {s : State}

theorem timeUnitPasses_reload {v : Interval} (h : s.timer.loadSeen = some v) (hv : v ≠ 0#16) :
    timeUnitPasses s = .next (timerReload v s) := by
  simp [timeUnitPasses, h, hv]

theorem timeUnitPasses_zero (h : s.timer.loadSeen = some 0#16) : timeUnitPasses s = .refused .timerPeriodZero := by
  simp [timeUnitPasses, h]

/-- The last unit of a period: a tick falls due and the next period starts. -/
theorem timeUnitPasses_last (h : s.timer.loadSeen = none) (hr : s.run = true) (h1 : s.timer.tcnt = 1#16) :
    timeUnitPasses s = .next { s with timer := { s.timer with due := true, tcnt := s.timer.period } } := by
  simp [timeUnitPasses, timerCount, h, State.tmrEnO, hr, h1]

/-- Any other unit of it counts one down. -/
theorem timeUnitPasses_inside (h : s.timer.loadSeen = none) (hr : s.run = true) (h1 : s.timer.tcnt ≠ 1#16) :
    timeUnitPasses s = .next { s with timer := { s.timer with tcnt := s.timer.tcnt - 1#16 } } := by
  simp [timeUnitPasses, timerCount, h, State.tmrEnO, hr, h1]

theorem timeUnitPasses_cancelled (h : s.timer.loadSeen = none) (hr : s.run = false) :
    timeUnitPasses s = .next { s with timer := { s.timer with due := false } } := by
  simp [timeUnitPasses, h, State.tmrEnO, hr]

theorem step_timeUnit {rest : List Input} (h : s.inputs = .timeUnit :: rest) :
    step s = timeUnitPasses { s with inputs := rest } :=
  step_input h

end TimeUnit

/-- Settles O46: each clause is one equation of the time unit. -/
theorem timeUnitFollowsReference : Obligations.TimeUnitFollowsReference := by
  intro s rest hin
  rw [step_timeUnit hin]
  exact ⟨fun _ hl hv => timeUnitPasses_reload hl hv, fun hl hr h1 => timeUnitPasses_last hl hr h1,
    fun hl hr h1 => timeUnitPasses_inside hl hr h1, fun hl hr => timeUnitPasses_cancelled hl hr,
    fun hl => timeUnitPasses_zero hl⟩

/-! ### A grant (R104, R109 b, c) -/

theorem timerRequests_eq_true_iff {s : State} : timerRequests s = true ↔ s.timer.due = true ∧ s.run = true :=
  Bool.and_eq_true_iff

theorem timerRequests_eq_false_iff {s : State} : timerRequests s = false ↔ s.timer.due = false ∨ s.run = false :=
  Bool.and_eq_false_iff

/-- A grant that delivers nothing is an idle cycle after which nothing is due (log 12). -/
theorem step_grant_of_no_request {s : State} {rest : List Input} (hin : s.inputs = .grant :: rest)
    (h : timerRequests s = false) : step s = .next
      { s with inputs := rest, frameStbO := false, tmrLoadO := false, timer := { s.timer with due := false } } :=
  (step_input hin).trans (takeInput_grant_idle h)

/-- Settles O48. -/
theorem grantDeliversDueTick : Obligations.GrantDeliversDueTick := by
  intro s rest hin
  refine ⟨fun hdue hr => ?_, fun h => step_grant_of_no_request hin (timerRequests_eq_false_iff.mpr h)⟩
  obtain ⟨u, hu, -⟩ := exec_effect .tick (beginEdge (timerGranted { s with inputs := rest }))
  have hrequest : timerRequests { s with inputs := rest } = true := timerRequests_eq_true_iff.mpr ⟨hdue, hr⟩
  refine ⟨timerSees u, u, ?_, hu, rfl⟩
  rw [step_input hin, takeInput_grant_due hrequest, commandEdge_of_exec hu]

/-! ### The only refusal (R100, U6) -/

/-- Every command edge has a next state, as every command has (R100). -/
theorem commandEdge_exists (i : Instr) (s : State) : ∃ t, commandEdge i s = .next t := by
  obtain ⟨u, hu, -⟩ := exec_effect i (beginEdge s)
  exact ⟨_, commandEdge_of_exec hu⟩

theorem clockEdge_exists (rst cmdValid : Bool) (w : Command) (s : State) :
    ∃ t, takeInput (.clock rst cmdValid w) s = .next t := by
  cases rst
  · cases cmdValid
    · exact ⟨_, takeInput_idle w s⟩
    · rw [takeInput_command]
      exact commandEdge_exists _ s
  · exact ⟨_, takeInput_reset cmdValid w s⟩

theorem takeInput_grant_exists (s : State) : ∃ t, takeInput .grant s = .next t := by
  rcases Bool.dichotomy (timerRequests s) with hq | hq
  · exact ⟨_, takeInput_grant_idle hq⟩
  · rw [takeInput_grant_due hq]
    exact commandEdge_exists _ _

/-- Settles O47, by the next input: only a time unit can refuse. -/
theorem stepStopsOnlyOnPeriodZero : Obligations.StepStopsOnlyOnPeriodZero := by
  intro s
  cases hin : s.inputs with
  | nil => exact .inl ⟨_, step_empty hin⟩
  | cons i rest =>
    rw [step_input hin]
    cases i with
    | clock rst cmdValid w => exact .inl (clockEdge_exists rst cmdValid w _)
    | grant => exact .inl (takeInput_grant_exists _)
    | timeUnit =>
      rcases timeUnitPasses_cases { s with inputs := rest } with ⟨v, -, -, e⟩ | ⟨hl, e⟩ | ⟨-, -, e⟩ | ⟨-, -, e⟩
      · exact .inl ⟨_, e⟩
      · exact .inr ⟨e, hl, rest, rfl⟩
      · exact .inl ⟨_, e⟩
      · exact .inl ⟨_, e⟩

/-! ### Both orders of a RECONF and a TICK (R104) -/

theorem runsWords_reconf {s : State} {v : Interval} {reconf : Command} (hreconf : decode reconf = .reconf v) :
    RunsWords [reconf] s (timerSees { beginEdge s with tickInterval := v, pend := true }) :=
  runsWords_cons (by rw [hreconf]; exact exec_reconf v _) (runsWords_nil _)

/-- Settles O45: after the RECONF the TICK is a pending one; before it, a normal one. -/
theorem arbiterOrders : Obligations.ArbiterOrders := by
  intro s v reconf tick hr hp hreconf htick
  obtain ⟨a, ha, rfl⟩ := runsWords_reconf_tick hreconf htick hr
  refine ⟨_, _, ha, runsWords_append (runsWords_tick_normal htick hr hp) (runsWords_reconf hreconf), ?_⟩
  rw [normalTick_eq]
  exact ⟨rfl, rfl, rfl, rfl, rfl, rfl, rfl, rfl⟩

/-! ### What the timer service is handed (R108, R109 d) -/

theorem intervalLoadedBy_of_not_accepted {i : Instr} {s : State} (h : accepted i s = false) :
    intervalLoadedBy i s = none := by
  cases i with
  | start v => exact if_neg (ne_true_of_eq_false h)
  | tick => exact if_neg (by rw [show s.run = false from h]; simp)
  | _ => rfl

theorem intervalLoadedBy_of_reserved {i : Instr} (s : State) (h : isReserved i = true) :
    intervalLoadedBy i s = none := by
  obtain ⟨htick, hstart⟩ := no_pulse_of_reserved h
  cases i with
  | start v => exact absurd rfl (hstart v)
  | tick => exact absurd rfl htick
  | _ => rfl

/-- With the pulse down before it, a command hands the service the interval it loads, and otherwise nothing new. -/
theorem Effect.loadSeen_eq {s t : State} {i : Instr} (he : Effect s i t) (h0 : s.tmrLoadO = false) :
    (timerSees t).timer.loadSeen = (intervalLoadedBy i s).or s.timer.loadSeen := by
  cases he with
  | ignored i m h => simp [intervalLoadedBy_of_not_accepted h, h0]
  | reserved i h => simp [intervalLoadedBy_of_reserved s h, h0]
  | start v h => simp [intervalLoadedBy, h]
  | tickNormal hr hp => simp [normalTick_eq, intervalLoadedBy, hp, h0]
  | tickPending hr hp => simp [pendingTick_eq, intervalLoadedBy, hr, hp]
  | _ => simp [intervalLoadedBy, h0]

/-- The service's registers after a command, R110's `P` and `tcnt` among them. -/
theorem Effect.timerSees_timer {s t : State} {i : Instr} (he : Effect s i t) (h0 : s.tmrLoadO = false) :
    (timerSees t).timer = { s.timer with
      loadSeen := (intervalLoadedBy i s).or s.timer.loadSeen
      due := s.timer.due && t.run } := by
  rw [← he.loadSeen_eq h0, Machine.timerSees_timer, he.timer]

/-- What a command loads does not depend on the pulses. -/
theorem intervalLoadedBy_beginEdge (i : Instr) (s : State) :
    intervalLoadedBy i (beginEdge s) = intervalLoadedBy i s := by
  cases i <;> rfl

/-- Settles O51. -/
theorem timerSeesLoadsOnly : Obligations.TimerSeesLoadsOnly := by
  intro s t i hex
  have htimer := (effect_of_exec (s := beginEdge s) hex).timerSees_timer rfl
  rw [intervalLoadedBy_beginEdge] at htimer
  rw [htimer]
  cases intervalLoadedBy i s with
  | none => rfl
  | some v => rfl

/-! ### Nothing is due while the timer is cancelled (R109 c) -/

/-- The clock edge drops a due tick if it leaves the timer cancelled (log 12). -/
theorem timerSees_due_of_idle {s : State} (h : s.run = false) : (timerSees s).timer.due = false := by
  simp [h]

theorem due_of_timeUnit {s t : State} (h : timeUnitPasses s = .next t) (hr : t.run = false) : t.timer.due = false := by
  rcases timeUnitPasses_cases s with ⟨v, -, -, e⟩ | ⟨-, e⟩ | ⟨-, hrun, e⟩ | ⟨-, -, e⟩ <;> rw [e] at h <;> cases h
  · rfl
  · simp [hrun] at hr
  · rfl

/-- Every step that leaves `RUN = 0` leaves no tick due. -/
theorem step_due_of_idle {s t : State} (h : step s = .next t) (hr : t.run = false) : t.timer.due = false := by
  rcases step_inversion h with ⟨-, rfl⟩ | ⟨b, w, rest, -, rfl⟩ | ⟨w, rest, -, rfl⟩ | ⟨w, rest, u, -, -, rfl⟩ |
    ⟨rest, u, -, -, -, rfl⟩ | ⟨rest, -, -, rfl⟩ | ⟨rest, -, ht⟩
  · exact timerSees_due_of_idle hr
  · rfl
  · exact timerSees_due_of_idle hr
  · exact timerSees_due_of_idle hr
  · exact timerSees_due_of_idle hr
  · exact timerSees_due_of_idle hr
  · exact due_of_timeUnit ht hr

/-- A STOP, then a START of a valid sequence: the timer is enabled again with nothing due, as the STOP's edge dropped
what was. -/
theorem runsWords_stop_start {s : State} {v : Interval} {stop start : Command} (hv : s.valid = true)
    (hstop : decode stop = .stop) (hstart : decode start = .start v) :
    ∃ t, RunsWords [stop, start] s t ∧ t.run = true ∧ t.timer.due = false :=
  ⟨_, runsWords_cons (by rw [hstop]; exact exec_stop _)
    (runsWords_cons (by rw [hstart]; exact exec_start_valid v hv) (runsWords_nil _)), rfl, by simp⟩

/-- Settles O49. -/
theorem noTickIsDueWhileCancelled : Obligations.NoTickIsDueWhileCancelled := by
  refine ⟨fun s t => step_due_of_idle, fun s hr => timerRequests_eq_false_iff.mpr (.inr hr),
    fun s v stop start hv hstop hstart => ?_⟩
  obtain ⟨t, ht, hr, hdue⟩ := runsWords_stop_start hv hstop hstart
  have hnone : timerRequests t = false := timerRequests_eq_false_iff.mpr (.inl hdue)
  refine ⟨t, ht, hr, hnone, ?_⟩
  rw [step_grant_of_no_request (s := { t with inputs := [.grant] }) rfl hnone, ← hdue]

/-! ### While the core runs, the timer service keeps counting (R109, R110) -/

/-- A command that leaves the core running found it running, or is a START and loads (R80). -/
theorem Effect.running_or_loads {s t : State} {i : Instr} (he : Effect s i t) (hr : t.run = true) :
    s.run = true ∨ (intervalLoadedBy i s).isSome = true := by
  cases he with
  | start v h => exact .inr (by simp [intervalLoadedBy, h])
  | tickNormal h | tickPending h => exact .inl h
  | stop => simp at hr
  | _ => exact .inl hr

/-- A command keeps the service counting: one that loads leaves a load to take up, every other finds the core running
and leaves `P` and `tcnt`. -/
theorem Effect.keeps_timerInv {s t : State} {i : Instr} (he : Effect s i t) (h0 : s.tmrLoadO = false)
    (hs : TimerInv s) : TimerInv (timerSees t) := by
  intro hr
  rw [he.timerSees_timer h0]
  rcases he.running_or_loads hr with hrun | hload
  · rcases hs hrun with hseen | hcount
    · exact .inl (by simp [hseen])
    · exact .inr hcount
  · exact .inl (by simp [hload])

/-- So does a time unit: `tcnt` becomes the load taken up, the period, or one less than it was. -/
theorem timeUnitPasses_keeps_timerInv {s t : State} (h : timeUnitPasses s = .next t) (hs : TimerInv s) :
    TimerInv t := by
  intro hr
  rcases timeUnitPasses_cases s with ⟨v, -, hv, e⟩ | ⟨-, e⟩ | ⟨hl, hrun, e⟩ | ⟨-, hrun, e⟩ <;> rw [e] at h <;> cases h
  · have hpos : 0 < v.toNat := Nat.pos_of_ne_zero fun h0 => hv (BitVec.eq_of_toNat_eq h0)
    exact .inr ⟨hpos, le_rfl⟩
  · obtain ⟨hpos, hle⟩ : 0 < s.timer.tcnt.toNat ∧ s.timer.tcnt.toNat ≤ s.timer.period.toNat := by
      simpa [hl] using hs hrun
    right
    rw [timerCount_timer]
    split
    · exact ⟨hpos.trans_le hle, le_rfl⟩
    · next hne =>
      dsimp only
      bv_omega
  · simp [hrun] at hr

/-- Settles O52. -/
theorem timerKeepsCounting : Obligations.TimerKeepsCounting := by
  intro s t hs hst
  cases effect_of_step hst with
  | command i s1 u due ins _ _ _ h1 he =>
    subst h1
    exact he.keeps_timerInv rfl hs
  | idle => exact hs
  | timeUnit ins t _ _ _ ht => exact timeUnitPasses_keeps_timerInv ht hs
  | reset => exact fun hr => by simp at hr

/-! ### When a tick falls due (R109 a, b) -/

theorem runSteps_timeUnits_succ {s t : State} (k : Nat)
    (h : timeUnitPasses { s with inputs := List.replicate k Input.timeUnit } = .next t) :
    runSteps (k + 1) { s with inputs := List.replicate (k + 1) Input.timeUnit } = runSteps k t :=
  runSteps_succ k ((step_timeUnit rfl).trans h)

/-- `k` time units of a running timer that has `n` left of its period: a tick is due at `k = n` and no earlier, and
there the next period starts. -/
theorem runSteps_timeUnits {s : State} {n : Nat} (hr : s.run = true) (hl : s.timer.loadSeen = none)
    (hdue : s.timer.due = false) (hn : s.timer.tcnt.toNat = n) (hpos : 0 < n) (k : Nat) (hk : k ≤ n) :
    ∃ t, runSteps k { s with inputs := List.replicate k Input.timeUnit } = .next t ∧
      t.timer.due = decide (k = n) ∧ t.timer.period = s.timer.period ∧
      (k = n → t.timer.tcnt = s.timer.period) ∧ t.run = true := by
  induction k generalizing s n with
  | zero => exact ⟨_, rfl, hdue.trans (decide_eq_false (by omega)).symm, rfl, fun h0 => by omega, hr⟩
  | succ k ih =>
    by_cases h1 : s.timer.tcnt = 1#16
    · obtain rfl : n = 1 := by rw [← hn, h1]; rfl
      obtain rfl : k = 0 := by omega
      rw [runSteps_timeUnits_succ (s := s) 0 (timeUnitPasses_last hl hr h1)]
      exact ⟨_, rfl, rfl, rfl, fun _ => rfl, hr⟩
    · have hleft : (s.timer.tcnt - 1#16).toNat = n - 1 := by bv_omega
      have hn1 : n ≠ 1 := fun h => h1 (BitVec.eq_of_toNat_eq (hn.trans h))
      rw [runSteps_timeUnits_succ (s := s) k (timeUnitPasses_inside hl hr h1)]
      obtain ⟨t, ht, htdue, hperiod, htcnt, htrun⟩ :=
        ih (s := { s with timer := { s.timer with tcnt := s.timer.tcnt - 1#16 } }) hr hl hdue hleft (by omega)
          (by omega)
      exact ⟨t, ht, htdue.trans (decide_eq_decide.mpr (by omega)), hperiod, fun hk => htcnt (by omega), htrun⟩

/-- Settles O50. -/
theorem tickFallsDueAfterPeriod : Obligations.TickFallsDueAfterPeriod := by
  intro s k hr hl hdue hstart hpos hk
  exact runSteps_timeUnits hr hl hdue (congrArg BitVec.toNat hstart) hpos k hk

end Sys2Proof.Machine
end

section
/-! PROOF. A reset edge (O33), the slot a running TICK reads (O39), and a RECONF before every TICK (O44). -/

namespace Sys2Proof.Machine

/-- Settles O33: whatever the port carries beside `rst = 1`, the step is the reset edge. -/
theorem resetEdgeSetsEveryRegister : Obligations.ResetEdgeSetsEveryRegister := by
  intro s cmdValid w rest hin
  have hstep : step s = .next (resetEdge { s with inputs := rest }) := (step_input hin).trans (takeInput_reset _ _ _)
  have hstatus : State.reset.statusO = 0#5 := by decide
  exact ⟨_, hstep, rfl, rfl, rfl, rfl, rfl, rfl, rfl, rfl, rfl, rfl, rfl, rfl, rfl, rfl, hstatus, rfl, rfl, rfl⟩

/-- Settles O39: the index of a running sequencer lies in its sequence, and every slot of that is written (R24, R122). -/
theorem tickReadsWrittenSlot : Obligations.TickReadsWrittenSlot := by
  intro s h hr
  obtain ⟨hvalid, hidx⟩ := h.running hr
  obtain ⟨f, hf⟩ := Option.isSome_iff_exists.mp (h.sequenceWritten hvalid _ hidx)
  exact ⟨f, hf, slotAt_of_read? hf⟩

/-- Settles O44, by induction on the intervals: each pair is the RECONF and pending TICK of `runsWords_reconf_tick`, which
leaves position and buffer as they were, so the next pair emits the same frame. -/
theorem reconfBeforeEveryTickStarves : Obligations.ReconfBeforeEveryTickStarves := by
  intro s vs tick hr htick
  induction vs generalizing s with
  | nil => exact ⟨s, runsWords_nil s, rfl, rfl, hr, rfl, by simp, by simp⟩
  | cons v vs ih =>
    obtain ⟨a, ha, heq⟩ := runsWords_reconf_tick (decodeOfEncode (.reconf v) rfl) htick hr
    obtain ⟨t, ht, hidx, hphase, hrun, hfb, hloads, htrace⟩ := ih a (by rw [heq]; exact hr)
    subst heq
    exact ⟨t, runsWords_append ha ht, hidx, hphase, hrun, hfb, hloads.trans (List.append_assoc _ _ _),
      htrace.trans (List.append_assoc _ _ _)⟩

end Sys2Proof.Machine
end

section
/-! PROOF. Stale data is never visible (O40): `Alike` is a simulation. `exec_alike` shows it for every command, from the
effects of `Effect`; the edge around a command touches nothing `Alike` speaks of (`Alike.edge`), so `step_alike` follows,
and O40 by induction on the number of steps. -/

namespace Sys2Proof.Machine

/-! ### Ways to be alike -/

section Ways
variable {s s' t t' : State}

theorem Alike.eq_update (h : Alike s s') : ∃ m v, s' = { s with fb := m, hold := v } := ⟨s'.fb, s'.hold, h.same⟩

/-- Two states that both keep the encoder's registers, `hold` and the data positions of the buffer stay alike. -/
theorem Alike.of_kept (h : Alike s s') (hsame : t' = { t with fb := t'.fb, hold := t'.hold }) (hcnt : t.cnt = s.cnt)
    (hlen : t.len = s.len) (henc : t.enc = s.enc) (hvalid : t.valid = s.valid)
    (hhold : t.hold = s.hold) (hhold' : t'.hold = s'.hold)
    (hdata : ∀ j, dataBits (slotAt t.fb j) = dataBits (slotAt s.fb j))
    (hdata' : ∀ j, dataBits (slotAt t'.fb j) = dataBits (slotAt s'.fb j)) : Alike t t' where
  same := hsame
  holdSame := by simpa only [State.cntOdd, henc, hcnt, hhold, hhold'] using h.holdSame
  sequenceSame := by simpa only [hvalid, hlen, hdata, hdata'] using h.sequenceSame
  pairsSame := by simpa only [henc, hcnt, hdata, hdata'] using h.pairsSame

/-- The same, where `FB` and `hold` themselves are kept. -/
theorem Alike.of_unread (h : Alike s s') (hcnt : t.cnt = s.cnt) (hlen : t.len = s.len) (henc : t.enc = s.enc)
    (hvalid : t.valid = s.valid) (hhold : t.hold = s.hold) (hfb : t.fb = s.fb) :
    Alike t { t with fb := s'.fb, hold := s'.hold } :=
  h.of_kept rfl hcnt hlen henc hvalid hhold rfl (fun _ => by rw [hfb]) (fun _ => rfl)

/-- With the encode open no sequence can be read: the closed pairs and a waiting character are all there is. -/
theorem alike_of_open (hsame : t' = { t with fb := t'.fb, hold := t'.hold }) (hvalid : t.valid = false)
    (hhold : t.cnt.toNat % 2 = 1 → t.hold = t'.hold)
    (hpairs : ∀ j, j < t.cnt.toNat - t.cnt.toNat % 2 → dataBits (slotAt t.fb j) = dataBits (slotAt t'.fb j)) :
    Alike t t' where
  same := hsame
  holdSame _ hodd := hhold (by simpa using hodd)
  sequenceSame hv := by simp [hvalid] at hv
  pairsSame _ := hpairs

/-- With the encode closed only the sequence can be read. -/
theorem alike_of_closed (hsame : t' = { t with fb := t'.fb, hold := t'.hold }) (henc : t.enc = false)
    (hseq : t.valid = true → ∀ j, j < t.len.toNat → dataBits (slotAt t.fb j) = dataBits (slotAt t'.fb j)) :
    Alike t t' where
  same := hsame
  holdSame he := by simp [henc] at he
  sequenceSame := hseq
  pairsSame he := by simp [henc] at he

end Ways

/-! ### Every command keeps two states alike -/

section Commands
variable {s : State} {m : Memory} {x : Nibble}

/-- CLR (R66) writes the same preamble over whatever stood there, and no character waits. -/
theorem Alike.clr :
    Alike { writePreamble s with cnt := 4#9, enc := true, valid := false, ovf := false }
      { writePreamble { s with fb := m, hold := x } with cnt := 4#9, enc := true, valid := false, ovf := false } := by
  refine alike_of_open rfl rfl (fun hodd => by simp at hodd) fun j hj => ?_
  have hj4 : j < 4 := by simpa using hj
  rw [slotAt_writePreamble, slotAt_writePreamble]
  split_ifs
  · rfl
  · rfl
  · rfl
  · rfl
  · omega

/-- A first of a pair (R67) goes to `hold` in both states, and closes no pair. -/
theorem Alike.pushOpens (h : Alike s { s with fb := m, hold := x }) (hs : Inv s) (v : Nibble) (he : s.enc = true)
    (hn : s.cnt.toNat ≠ 256) (hc : s.cnt.toNat % 2 = 0) :
    Alike { s with hold := v, cnt := s.cnt + 1#9 } { s with fb := m, hold := v, cnt := s.cnt + 1#9 } := by
  have hhi : s.cnt.toNat ≤ 256 := (hs.cntInRange he).2
  have hsucc := count_succ_toNat (n := s.cnt) (by omega)
  refine alike_of_open rfl (hs.openNotValid he) (fun _ => rfl) fun j hj => h.pairsSame he j ?_
  simp only [hsucc] at hj
  omega

/-- A second of a pair (R33, R67) is written with the character that waited, which both states hold. -/
theorem Alike.pushCloses (h : Alike s { s with fb := m, hold := x }) (hs : Inv s) (v : Nibble) (he : s.enc = true)
    (hc : s.cnt.toNat % 2 = 1) :
    Alike { writePair v s with cnt := s.cnt + 1#9 }
      { writePair v { s with fb := m, hold := x } with cnt := s.cnt + 1#9 } := by
  obtain ⟨hlo, hhi⟩ : 4 ≤ s.cnt.toNat ∧ s.cnt.toNat ≤ 256 := hs.cntInRange he
  have hsucc := count_succ_toNat (n := s.cnt) (by omega)
  have hhold : s.hold = x := h.holdSame he (by simpa using hc)
  refine alike_of_open rfl (hs.openNotValid he) (fun _ => hhold) fun j hj => ?_
  simp only [hsucc] at hj
  rw [slotAt_writePair, slotAt_writePair, slotIndex_toNat_of_lt (by omega), slotIndex_pred_toNat (by omega) hhi]
  split_ifs
  · rw [hhold]
  · rfl
  · exact h.pairsSame he j (by omega)

/-- FIN of an even count (R68) publishes the closed pairs. -/
theorem Alike.finEven (h : Alike s { s with fb := m, hold := x }) (he : s.enc = true) (hc : s.cnt.toNat % 2 = 0) :
    Alike { s with len := s.cnt, enc := false, valid := !s.ovf }
      { s with fb := m, hold := x, len := s.cnt, enc := false, valid := !s.ovf } := by
  refine alike_of_closed rfl rfl fun _ j hj => ?_
  have hj' : j < s.cnt.toNat := hj
  exact h.pairsSame he j (by omega)

/-- FIN of an odd count (R35, R68) publishes the closed pairs and a tail that both states write. -/
theorem Alike.finOdd (h : Alike s { s with fb := m, hold := x }) (hs : Inv s) (he : s.enc = true)
    (hc : s.cnt.toNat % 2 = 1) :
    Alike { writeOddTail s with len := s.cnt, enc := false, valid := !s.ovf }
      { writeOddTail { s with fb := m, hold := x } with len := s.cnt, enc := false, valid := !s.ovf } := by
  have hhi : s.cnt.toNat ≤ 256 := (hs.cntInRange he).2
  refine alike_of_closed rfl rfl fun _ j hj => ?_
  have hj' : j < s.cnt.toNat := hj
  rw [slotAt_writeOddTail, slotAt_writeOddTail, slotIndex_pred_toNat (by omega) hhi]
  split_ifs
  · rfl
  · exact h.pairsSame he j (by omega)

/-- R26, R82: a running sequencer emits the same frame from both buffers, the stored clock bit being replaced. -/
theorem Alike.tickFrame_eq (h : Alike s { s with fb := m, hold := x }) (hs : Inv s) (hr : s.run = true) :
    tickFrame { s with fb := m, hold := x } = tickFrame s := by
  obtain ⟨hvalid, hidx⟩ := hs.running hr
  exact withClock_congr (h.sequenceSame hvalid _ hidx).symm

theorem Alike.normalTick (h : Alike s { s with fb := m, hold := x }) (hs : Inv s) (hr : s.run = true) :
    Alike (Machine.normalTick s) (Machine.normalTick { s with fb := m, hold := x }) := by
  have hframe := h.tickFrame_eq hs hr
  refine h.of_kept ?_ ?_ ?_ ?_ ?_ ?_ ?_ (dataBits_slotAt_normalTick _) (dataBits_slotAt_normalTick _)
  · rw [normalTick_eq, normalTick_eq, hframe]
    rfl
  iterate 6 rw [normalTick_eq]

theorem Alike.pendingTick (h : Alike s { s with fb := m, hold := x }) (hs : Inv s) (hr : s.run = true) :
    Alike (Machine.pendingTick s) (Machine.pendingTick { s with fb := m, hold := x }) := by
  have hframe := h.tickFrame_eq hs hr
  refine h.of_kept ?_ rfl rfl rfl rfl rfl rfl (fun _ => rfl) (fun _ => rfl)
  rw [pendingTick_eq, pendingTick_eq, hframe]

/-- An ignored command leaves the same mark whatever `FB` and `hold` are (R101). -/
theorem exec_update_of_not_accepted {i : Instr} (m : Memory) (x : Nibble) (ha : accepted i s = false) :
    ∃ k, exec i s = .next (ignore k s) ∧
      exec i { s with fb := m, hold := x } = .next (ignore k { s with fb := m, hold := x }) := by
  obtain ⟨k, hk, hleft⟩ := exec_of_not_accepted ha
  obtain ⟨k', hk', hleft'⟩ := exec_of_not_accepted (s := { s with fb := m, hold := x }) ha
  obtain rfl : k = k' := List.singleton_inj.mp (hleft.symm.trans hleft')
  exact ⟨k, hk, hk'⟩

end Commands

/-- R130: a command that runs on two alike states leaves alike states: what it reads of `FB` and `hold` is the same in
both. -/
theorem exec_alike {i : Instr} {s s' t : State} (hs : Inv s) (h : Alike s s') (hex : exec i s = .next t) :
    ∃ t', exec i s' = .next t' ∧ Alike t t' := by
  obtain ⟨m, x, rfl⟩ := h.eq_update
  cases effect_of_exec hex with
  | ignored i k ha =>
    obtain ⟨k', hk, hk'⟩ := exec_update_of_not_accepted m x ha
    rw [exec_next_unique hex hk]
    exact ⟨_, hk', h.of_unread rfl rfl rfl rfl rfl rfl⟩
  | reserved i hi => exact ⟨_, (exec_of_reserved _ hi).1, h.of_unread rfl rfl rfl rfl rfl rfl⟩
  | nop => exact ⟨_, exec_nop _, h⟩
  | clr hr => exact ⟨_, exec_clr_idle hr, .clr⟩
  | pushFull c he hc => exact ⟨_, exec_push_full c he hc, h.of_unread rfl rfl rfl rfl rfl rfl⟩
  | pushOpens c he hn hc => exact ⟨_, exec_push_opens c he hn hc, h.pushOpens hs _ he hn hc⟩
  | pushCloses c he hc => exact ⟨_, exec_push_closes c he hc, h.pushCloses hs _ he hc⟩
  | finEven he hc => exact ⟨_, exec_fin_even he hc, h.finEven he hc⟩
  | finOdd he hc => exact ⟨_, exec_fin_odd he hc, h.finOdd hs he hc⟩
  | start v hv => exact ⟨_, exec_start_valid v hv, h.of_unread rfl rfl rfl rfl rfl rfl⟩
  | tickNormal hr hp => exact ⟨_, exec_tick_normal hr hp, h.normalTick hs hr⟩
  | tickPending hr hp => exact ⟨_, exec_tick_pending hr hp, h.pendingTick hs hr⟩
  | reconf v => exact ⟨_, exec_reconf v _, h.of_unread rfl rfl rfl rfl rfl rfl⟩
  | stop => exact ⟨_, exec_stop _, h.of_unread rfl rfl rfl rfl rfl rfl⟩

/-! ### What a step does beside a command -/

/-- The edge touches the timer service, the inputs and the pulses only, and both states alike. -/
theorem Alike.edge {s s' : State} (h : Alike s s') (timer : Timer) (ins : List Input) (stb load : Bool) :
    Alike { s with timer := timer, inputs := ins, frameStbO := stb, tmrLoadO := load }
      { s' with timer := timer, inputs := ins, frameStbO := stb, tmrLoadO := load } := by
  obtain ⟨m, x, rfl⟩ := h.eq_update
  exact h.of_unread rfl rfl rfl rfl rfl rfl

theorem Alike.inputs_eq {s s' : State} (h : Alike s s') : s'.inputs = s.inputs := by
  rw [h.same]

theorem Alike.timerRequests_eq {s s' : State} (h : Alike s s') : timerRequests s' = timerRequests s := by
  rw [h.same]
  rfl

theorem Alike.withInputs {s s' : State} (h : Alike s s') (ins : List Input) :
    Alike { s with inputs := ins } { s' with inputs := ins } := by
  obtain ⟨m, x, rfl⟩ := h.eq_update
  exact h.edge s.timer ins s.frameStbO s.tmrLoadO

theorem Alike.beginEdge {s s' : State} (h : Alike s s') : Alike (Machine.beginEdge s) (Machine.beginEdge s') := by
  obtain ⟨m, x, rfl⟩ := h.eq_update
  exact h.edge s.timer s.inputs false false

theorem Alike.timerGranted {s s' : State} (h : Alike s s') :
    Alike (Machine.timerGranted s) (Machine.timerGranted s') := by
  obtain ⟨m, x, rfl⟩ := h.eq_update
  exact h.edge _ s.inputs s.frameStbO s.tmrLoadO

theorem Alike.timerSees {s s' : State} (h : Alike s s') : Alike (Machine.timerSees s) (Machine.timerSees s') := by
  obtain ⟨m, x, rfl⟩ := h.eq_update
  exact h.edge _ s.inputs s.frameStbO s.tmrLoadO

theorem Alike.idleEdge {s s' : State} (h : Alike s s') : Alike (Machine.idleEdge s) (Machine.idleEdge s') :=
  h.beginEdge.timerSees

/-- A reset edge ends the encode and the sequence (R120): nothing of `FB` and `hold` can be read. -/
theorem Alike.resetEdge {s s' : State} (h : Alike s s') : Alike (Machine.resetEdge s) (Machine.resetEdge s') := by
  obtain ⟨m, x, rfl⟩ := h.eq_update
  exact alike_of_closed rfl rfl fun hv => by simp at hv

/-- A time unit looks at the timer service and at `RUN` only (R110). -/
theorem timeUnitPasses_update {s t : State} (m : Memory) (x : Nibble) (h : timeUnitPasses s = .next t) :
    timeUnitPasses { s with fb := m, hold := x } = .next { t with fb := m, hold := x } := by
  rcases timeUnitPasses_cases s with ⟨v, hl, hv, e⟩ | ⟨-, e⟩ | ⟨hl, hr, e⟩ | ⟨hl, hr, e⟩ <;> rw [e] at h <;> cases h
  · exact timeUnitPasses_reload hl hv
  · by_cases h1 : s.timer.tcnt = 1#16
    · rw [timerCount, if_pos h1]
      exact timeUnitPasses_last hl hr h1
    · rw [timerCount, if_neg h1]
      exact timeUnitPasses_inside hl hr h1
  · exact timeUnitPasses_cancelled hl hr

theorem timeUnitPasses_alike {s s' t : State} (h : Alike s s') (ht : timeUnitPasses s = .next t) :
    ∃ t', timeUnitPasses s' = .next t' ∧ Alike t t' := by
  obtain ⟨m, x, rfl⟩ := h.eq_update
  refine ⟨_, timeUnitPasses_update m x ht, ?_⟩
  rw [timeUnitPasses_frame ht]
  exact h.edge _ s.inputs s.frameStbO s.tmrLoadO

/-! ### Steps and runs -/

/-- The edges of one command on two alike states (R45). -/
theorem commandEdge_alike {i : Instr} {s s' t : State} (hs : Inv s) (h : Alike s s') (ht : commandEdge i s = .next t) :
    ∃ t', commandEdge i s' = .next t' ∧ Alike t t' := by
  obtain ⟨u, hu, rfl⟩ := commandEdge_next ht
  obtain ⟨u', hu', hlike⟩ := exec_alike (inv_of_edge hs s.timer s.inputs false false) h.beginEdge hu
  exact ⟨_, commandEdge_of_exec hu', hlike.timerSees⟩

theorem takeInput_alike {i : Input} {s s' t : State} (hs : Inv s) (h : Alike s s') (ht : takeInput i s = .next t) :
    ∃ t', takeInput i s' = .next t' ∧ Alike t t' := by
  cases i with
  | clock rst cmdValid w =>
    match rst, cmdValid with
    | true, _ =>
      rw [takeInput_reset] at ht
      cases ht
      exact ⟨_, takeInput_reset _ w s', h.resetEdge⟩
    | false, false =>
      rw [takeInput_idle] at ht
      cases ht
      exact ⟨_, takeInput_idle w s', h.idleEdge⟩
    | false, true =>
      rw [takeInput_command] at ht ⊢
      exact commandEdge_alike hs h ht
  | grant =>
    have hgranted : Inv (timerGranted s) := inv_of_edge hs _ s.inputs s.frameStbO s.tmrLoadO
    rcases Bool.dichotomy (timerRequests s) with hq | hq
    · rw [takeInput_grant_idle hq] at ht
      cases ht
      exact ⟨_, takeInput_grant_idle (h.timerRequests_eq.trans hq), h.timerGranted.idleEdge⟩
    · rw [takeInput_grant_due hq] at ht
      rw [takeInput_grant_due (h.timerRequests_eq.trans hq)]
      exact commandEdge_alike hgranted h.timerGranted ht
  | timeUnit => exact timeUnitPasses_alike h ht

/-- One step: both states take the same input. -/
theorem step_alike {s s' t : State} (hs : Inv s) (h : Alike s s') (hst : step s = .next t) :
    ∃ t', step s' = .next t' ∧ Alike t t' := by
  cases hin : s.inputs with
  | nil =>
    rw [step_empty hin] at hst
    cases hst
    exact ⟨_, step_empty (h.inputs_eq.trans hin), h.idleEdge⟩
  | cons i rest =>
    rw [step_input hin] at hst
    rw [step_input (h.inputs_eq.trans hin)]
    exact takeInput_alike (inv_of_edge hs s.timer rest s.frameStbO s.tmrLoadO) (h.withInputs rest) hst

theorem run_succ_of_refused (M : Host.Core) (n : Nat) (s : M.State) (r : M.Refusal) (h : M.step s = .refused r) :
    M.run (n + 1) s = .refused r := by
  rw [Host.Core.run, h]

/-- A run of `n + 1` steps begins with a step. -/
theorem runSteps_succ_inv {n : Nat} {s t : State} (h : runSteps (n + 1) s = .next t) :
    ∃ u, step s = .next u ∧ runSteps n u = .next t := by
  rcases stepStopsOnlyOnPeriodZero s with ⟨u, hu⟩ | ⟨hrefused, -⟩
  · exact ⟨u, hu, (runSteps_succ n hu).symm.trans h⟩
  · cases (run_succ_of_refused Sys2Proof.core n s _ hrefused).symm.trans h

/-- Settles O40: a step keeps the invariant and the likeness, so any number of them does. -/
theorem staleDataIsInvisible : Obligations.StaleDataIsInvisible := by
  intro n s s' t hs hs' h hrun
  induction n generalizing s s' with
  | zero =>
    cases hrun
    exact ⟨s', runSteps_zero s', h⟩
  | succ n ih =>
    obtain ⟨u, hu, hrest⟩ := runSteps_succ_inv hrun
    obtain ⟨u', hu', hlike⟩ := step_alike hs h hu
    rw [runSteps_succ n hu']
    exact ih u u' (stepKeepsInvariant s u hs hu) (stepKeepsInvariant s' u' hs' hu') hlike hrest

end Sys2Proof.Machine
end
